-- ==== Sys2Proof/Word.lean ====
section
/-!
DEFINITION. The word types of the ND3204: the byte that frames and flash pages are made of, and the 16- and
32-bit check values (R179, R180). Everything the manual counts (slots, blocks, ticks, seconds) is a plain `Nat`.
-/

namespace Sys2Proof

/-- One byte of a frame, a tag page or the settings record (R181). -/
abbrev Byte := BitVec 8

/-- The register of the CRC-16 (R179). -/
abbrev Word16 := BitVec 16

/-- The register of the CRC-32 (R180), and the check value of an image. -/
abbrev Word32 := BitVec 32

end Sys2Proof
end

