-- ==== Sys2Proof/Config.lean ====
section
/-!
DEFINITION. What the manual fixes once for the part (sizes and limits), what the board fixes (the straps), and the one
thing the manual leaves open as a value: what the flash holds where a program or an erase was cut off (R150, R151).
-/

namespace Sys2Proof.Config

/-- Roster slots (R1). -/
def slots : Nat := 32
/-- Job tags (R39). -/
def tags : Nat := 24
/-- Plan rules, at most (section 2.3). -/
def maxRules : Nat := 16
/-- Pin records of one kind, and held serials, at most (R2, R28). -/
def maxPins : Nat := 32
/-- Image records, at most (R126). -/
def maxImages : Nat := 24
/-- Extents of the flash, numbered 0 to 2047; extents 1 to 2047 are the pool (section 7.1). -/
def extents : Nat := 2048
/-- Bytes of an extent (section 7.1). -/
def extentBytes : Nat := 4096
/-- Bytes of a page, and of an image block (section 7.1). -/
def pageBytes : Nat := 256
/-- Image blocks held by one extent (R123). -/
def blocksPerExtent : Nat := 15
/-- The longest image, in blocks (table 7.1). -/
def maxImageBlocks : Nat := 4080
/-- Bytes of the settings record (R173). -/
def recordBytes : Nat := 1024
/-- The highest address probed on a line (R13). -/
def lastAddress : Nat := 47
/-- Erase suspensions, at most, for one erase (R146). -/
def suspendCap : Nat := 32
/-- The free count below which STORE_LOW is posted (R125). -/
def storeLowMark : Nat := 64
/-- Ticks of 100 us in a second (R72). -/
def ticksPerSecond : Nat := 10000
/-- The mode hold, 30,000 ms, in ticks of 100 us (R153). -/
def modeHoldTicks : Nat := 300000
/-- The longest spell without a sweep probe, 250 ms, in ticks (R75). -/
def sweepOverdueTicks : Nat := 2500
/-- The polling cadence of an erase and of a verification, 500 ms, in ticks (R72). -/
def slowPollTicks : Nat := 5000
/-- The flash's erased byte (section 12.4). -/
def erasedByte : Byte := 0xFF

/-- What the straps VADR0 and VADR1 are wired to, as a number: fixed by the board (R160). Log entry 31. -/
opaque straps : Fin 4

/-- The address at which the Vehicle port answers on its I2C bus (R160). -/
def vehicleAddress : Nat := 0x34 + straps.val

/-- FREE VALUE. What the byte at `addr` reads as after the `use`-th program or erase that ended FAILED or ABANDONED,
or that a full reset cut off: the manual says the page or extent is left partly programmed or partly erased
(R150, R151) and gives no contents. No body: nothing can be proved of it. Log entry 4. -/
opaque flashFree (use addr : Nat) : Byte

end Sys2Proof.Config
end

