-- ==== Sys2Proof/Syntax.lean ====
section
/-!
DEFINITION. The commands of the ND3204, one constructor of `Instr` for each row of spec/opcode_table.json, and the
operands they carry. Orders carry the parameters of their frame as the numbers on the wire, flags and enumerated
fields included, so that a value outside its encoding (R181) can be given and is answered as the manual says.
Replies received on a cabin line carry the decoded fields of Table 12.7.
-/

namespace Sys2Proof

/-- The two cabin lines. -/
inductive Line where
  | A | B
  deriving DecidableEq, Repr, Inhabited

/-- The three management ports (chapter 10). -/
inductive Port where
  | Y | V | S
  deriving DecidableEq, Repr, Inhabited

/-- A software version (R20). -/
structure Version where
  major : Nat
  minor : Nat
  build : Nat
  deriving DecidableEq, Repr, Inhabited

/-- One of a unit's two flash banks. -/
inductive Bank where
  | b0 | b1
  deriving DecidableEq, Repr, Inhabited

/-- What is recorded of one bank: the version it holds, if any, and its valid flag (Table 1.1). -/
structure BankRecord where
  version : Option Version
  valid   : Bool
  deriving DecidableEq, Repr, Inhabited

/-- A unit's report of the load in its inactive bank (Table 1.1). -/
structure LoadingMark where
  version : Version
  crc     : Word32
  fill    : Nat
  deriving DecidableEq, Repr, Inhabited

/-- The fields of an IDENT (Table 12.7). -/
structure Ident where
  serial    : Nat
  classCode : Nat
  hwRev     : Nat
  capacity  : Nat
  bank0     : BankRecord
  bank1     : BankRecord
  running   : Bank
  bootFault : Bool
  loading   : Option LoadingMark
  deriving DecidableEq, Repr, Inhabited

/-- The mode of a LOAD (R47). -/
inductive LoadMode where
  | fresh | resume
  deriving DecidableEq, Repr, Inhabited

/-- The refusal field of a FILL (Table 12.7). -/
inductive FillRefusal where
  | accepted | capacity | refused
  deriving DecidableEq, Repr, Inhabited

/-- The fields of a FILL (Table 12.7). -/
structure Fill where
  fill    : Nat
  busy    : Bool
  refusal : FillRefusal
  mode    : LoadMode
  deriving DecidableEq, Repr, Inhabited

/-- The kinds a TAKEN can answer (Table 12.7). -/
inductive TakenKind where
  | block | check | swap | revert
  deriving DecidableEq, Repr, Inhabited

/-- The fields of a TAKEN (Table 12.7). -/
structure Taken where
  fill     : Nat
  busy     : Bool
  answered : TakenKind
  deriving DecidableEq, Repr, Inhabited

/-- The activity field of a STATE (Table 12.7). -/
inductive Activity where
  | idle | erase | program | check
  deriving DecidableEq, Repr, Inhabited

/-- The check result field of a STATE (Table 12.7). -/
inductive CheckResult where
  | noResult | pass | fail
  deriving DecidableEq, Repr, Inhabited

/-- The fault field of a STATE (Table 12.7). -/
inductive UnitFaultField where
  | noFault | writeFault | sequence | capacity
  deriving DecidableEq, Repr, Inhabited

/-- The fields of a STATE (Table 12.7). -/
structure UnitReport where
  busy     : Bool
  activity : Activity
  busyTime : Nat
  fill     : Nat
  check    : CheckResult
  fault    : UnitFaultField
  deriving DecidableEq, Repr, Inhabited

/-- A reply of a cabin unit. -/
inductive CabinReply where
  | ident (i : Ident)
  | fill (f : Fill)
  | taken (t : Taken)
  | state (u : UnitReport)
  deriving DecidableEq, Repr, Inhabited

/-- One character received on a cabin line (R63): the levels of its eleven bit times, bit 0 the first; whether the
receiver lost it by overrun (R67); and whether an idle gap longer than 2 character times stood before it (R64). -/
structure RxChar where
  bits    : BitVec 11
  overrun : Bool
  gap     : Bool
  deriving DecidableEq, Repr, Inhabited

/-- A reception on a cabin line, character by character, until the line falls silent (R64). -/
structure Reception where
  chars : List RxChar
  deriving DecidableEq, Repr, Inhabited

/-- The profile fields of SET PROFILE, as given (Table 2.1). -/
structure ProfileArgs where
  used   : Nat
  cls    : Nat
  burst  : Nat
  seed   : Nat
  erase  : Nat
  verify : Nat
  boot   : Nat
  deriving DecidableEq, Repr, Inhabited

/-- The rule fields of SET RULE, as given (Table 2.2). -/
structure RuleArgs where
  cls       : Nat
  hwMin     : Nat
  hwMax     : Nat
  imageId   : Nat
  prio      : Nat
  downgrade : Nat
  deriving DecidableEq, Repr, Inhabited

/-- The line settings of SET LINE, as given (Table 4.6). -/
structure LineArgs where
  rate      : Nat
  timeout   : Nat
  retry     : Nat
  openLimit : Nat
  swapLimit : Nat
  interval  : Nat
  enable    : Nat
  deriving DecidableEq, Repr, Inhabited

/-- The commands: one constructor for each row of spec/opcode_table.json, in the table's order. -/
inductive Instr where
  | fullReset
  | openImage (p : Port) (id cls hwMin hwMax : Nat) (version : Version) (length : Nat) (crc : Word32)
  | writeBlock (p : Port) (id block : Nat) (data : List Byte)
  | closeImage (p : Port) (id : Nat)
  | dropImage (p : Port) (id : Nat)
  | listImages (p : Port)
  | readImage (p : Port) (id first : Nat)
  | setProfile (p : Port) (index : Nat) (args : ProfileArgs)
  | setRule (p : Port) (position : Nat) (args : RuleArgs)
  | removeRule (p : Port) (position : Nat)
  | readPlan (p : Port)
  | pinUnit (p : Port) (slot imageId prio noRetry : Nat)
  | unpinUnit (p : Port) (slot : Nat)
  | releaseUnit (p : Port) (slot : Nat)
  | readUnit (p : Port) (slot : Nat)
  | readRoster (p : Port) (first : Nat)
  | sweepNow (p : Port)
  | setMode (p : Port) (mode : Nat)
  | setDeparture (p : Port) (given value : Nat)
  | powerWarning (p : Port)
  | setLine (p : Port) (line : Nat) (args : LineArgs) (guardSeconds : Nat)
  | readLine (p : Port) (line clear : Nat)
  | resetLine (p : Port) (line : Nat)
  | setTime (p : Port) (value : Nat)
  | readStatus (p : Port)
  | readEvents (p : Port)
  | setEventMask (p : Port) (enables : List Nat)
  | saveSettings (p : Port)
  | reloadSettings (p : Port)
  | reset (p : Port)
  | badFrame (p : Port) (cycle : List Byte)
  | replyRead (p : Port) (clocked : Nat)
  | serviceFrameTimeout
  | identReceived (l : Line) (i : Ident)
  | fillReceived (l : Line) (f : Fill)
  | takenReceived (l : Line) (t : Taken)
  | stateReceived (l : Line) (u : UnitReport)
  | badReply (l : Line) (r : Reception)
  | noReply (l : Line)
  | frameSent (l : Line)
  | pollDue (tag : Nat)
  | activationProbeDue (slot : Nat)
  | sweepIntervalExpiry (l : Line)
  | sweepProbeOverdue (l : Line)
  | recoveryTimerExpiry (l : Line)
  | bootTimerFirstExpiry (slot : Nat)
  | bootTimerFallbackExpiry (slot : Nat)
  | oneSecondTick
  | windowCutoff
  | modeHoldExpiry
  | pwrwarnAsserted
  | pwrwarnCleared
  | lineReadDone
  | pageProgramDone (ok : Bool)
  | tagProgramDone (ok : Bool)
  | closeCheckReadDone
  | closeMarkProgramDone (ok : Bool)
  | dropMarkProgramDone (ok : Bool)
  | backgroundEraseDone (ok : Bool)
  | eraseSuspended
  | settingsEraseDone (ok : Bool)
  | settingsPageProgramDone (ok : Bool)
  | settingsReadDone
  | tagReadDone
  | flashOperationLimit
  | recoveryHoldEnd
  | pwrwarnSample (active : Bool)
  | interframeGapEnd (l : Line)
  | serviceReplySent
  deriving DecidableEq, Repr, Inhabited

end Sys2Proof
end

