-- ==== Sys2Proof/Machine/Bytes.lean ====
section
/-!
DEFINITION. Bytes, characters and check values: the byte order of every frame and record (R181), the characters of a
cabin line (R63), the CRC-16 (R179) and the CRC-32 (R180).
-/

namespace Sys2Proof.Machine

/-- One byte of a number (R181). -/
def byte (n : Nat) : Byte := BitVec.ofNat 8 n

/-- A number in two bytes, most significant first (R181). -/
def bytes16 (n : Nat) : List Byte := [byte (n / 256), byte n]

/-- A number in four bytes, most significant first (R181). -/
def bytes32 (n : Nat) : List Byte := [byte (n / 16777216), byte (n / 65536), byte (n / 256), byte n]

/-- A version takes 4 bytes: major, minor, then build in 2 bytes (R181). -/
def bytesVersion (v : Version) : List Byte := [byte v.major, byte v.minor] ++ bytes16 v.build

/-- A flag takes one byte, 0 for clear and 1 for set (R181). -/
def bytesFlag (b : Bool) : List Byte := [if b then 1 else 0]

/-- An optional field: a presence byte, then the value's full width, zeros when it is absent (R181). -/
def bytesOption {α : Type} (width : Nat) (f : α → List Byte) : Option α → List Byte
  | none => 0 :: List.replicate width 0
  | some a => 1 :: f a

/-- A list: a count byte, then the items (R181). -/
def bytesList {α : Type} (f : α → List Byte) (xs : List α) : List Byte :=
  byte xs.length :: (xs.map f).flatten

/-- The number at an offset, one byte (R181); past the end, 0. -/
def num8 (bs : List Byte) (i : Nat) : Nat := (bs[i]?.getD 0).toNat

/-- The number at an offset, two bytes, most significant first (R181). -/
def num16 (bs : List Byte) (i : Nat) : Nat := num8 bs i * 256 + num8 bs (i + 1)

/-- The number at an offset, four bytes, most significant first (R181). -/
def num32 (bs : List Byte) (i : Nat) : Nat := num16 bs i * 65536 + num16 bs (i + 2)

/-- The version at an offset (R181). -/
def numVersion (bs : List Byte) (i : Nat) : Version := ⟨num8 bs i, num8 bs (i + 1), num16 bs (i + 2)⟩

/-! ### Characters on a cabin line (R63) -/

/-- The even parity bit of a byte: set when the byte has an odd number of ones (R63). -/
def evenParity (b : Byte) : Bool := (List.range 8).foldl (fun p i => p != b.getLsbD i) false

/-- A byte as a character of eleven bit times, bit 0 the first on the wire: a low start bit, the data bits least
significant first, the even parity bit, a high stop bit (R63). -/
def charBits (b : Byte) : BitVec 11 :=
  1#1 ++ BitVec.ofBool (evenParity b) ++ b ++ 0#1

/-- The data of a character (R63). -/
def charData (c : BitVec 11) : Byte := c.extractLsb' 1 8

/-- The parity bit of a character disagrees with its data (R63, R67). -/
def charParityBad (c : BitVec 11) : Bool := c.getLsbD 9 != evenParity (charData c)

/-- The stop bit of a character is low (R63, R67). -/
def charStopLow (c : BitVec 11) : Bool := !c.getLsbD 10

/-! ### Check values -/

/-- One shift of the CRC-16 register: generator 0x1021, most significant bit first (R179). -/
def crc16Shift (r : Word16) : Word16 :=
  if r.msb then (r <<< 1) ^^^ 0x1021#16 else r <<< 1

/-- One byte entering the CRC-16, most significant bit first (R179). -/
def crc16Byte (r : Word16) (b : Byte) : Word16 :=
  Nat.repeat crc16Shift 8 (r ^^^ (b.setWidth 16 <<< 8))

/-- The CRC-16 of a run of bytes: the register starts at 0xFFFF, the result neither reflected nor inverted (R179). -/
def crc16 (bs : List Byte) : Word16 := bs.foldl crc16Byte 0xFFFF#16

/-- One shift of the CRC-32 register: 0xEDB88320 is the generator 0x04C11DB7 with its bits in the order in which
they enter, least significant first (R180). -/
def crc32Shift (r : Word32) : Word32 :=
  if r.getLsbD 0 then (r >>> 1) ^^^ 0xEDB88320#32 else r >>> 1

/-- One byte entering the CRC-32, least significant bit first (R180). -/
def crc32Byte (r : Word32) (b : Byte) : Word32 :=
  Nat.repeat crc32Shift 8 (r ^^^ b.setWidth 32)

/-- The register before the first byte (R180). -/
def crc32Start : Word32 := 0xFFFFFFFF#32

/-- A run of bytes folded into a CRC-32 register (R133, R180). -/
def crc32Fold (r : Word32) (bs : List Byte) : Word32 := bs.foldl crc32Byte r

/-- The result: the register, already in reflected order, exclusive-ored with 0xFFFFFFFF (R180). -/
def crc32Finish (r : Word32) : Word32 := r ^^^ 0xFFFFFFFF#32

/-- The CRC-32 of a run of bytes (R180). -/
def crc32 (bs : List Byte) : Word32 := crc32Finish (crc32Fold crc32Start bs)

/-- A CRC-16 placed in a frame or record, most significant byte first (R181). -/
def bytesCrc16 (bs : List Byte) : List Byte := bytes16 (crc16 bs).toNat

/-- A CRC-32 placed in a frame or record, most significant byte first (R181). -/
def bytesCrc32 (r : Word32) : List Byte := bytes32 r.toNat

end Sys2Proof.Machine
end

