-- ==== Sys2Proof/Decode.lean ====
section
/-!
DEFINITION. Reading commands from bits. spec/opcode_table.json gives no row any bits, so no table word spells a
command. What the manual does give as bytes is read here: an order frame on a management port (Tables 12.1 and 12.2,
R162) and a reply frame on a cabin line (Tables 12.4, 12.5 and 12.7, R67).
-/

namespace Sys2Proof

open Sys2Proof.Machine

/-- The command a table word spells: none, for no row of spec/opcode_table.json gives bits. -/
def decodeTableWord (_nbits _w : Nat) : Option Instr := none

/-- What R162's first four checks answer when one fails. -/
inductive OrderFault where
  | badFrame | badOrder
  deriving DecidableEq, Repr

/-- The bytes of parameters an order takes, by its code (Table 12.2, R181); none for a code that names no order. A slot, a
rule position, a line, a mode and an index take 1 byte, and READ IMAGE's first position 2 (the model's choice, log entry
12). -/
def orderParamBytes : Nat → Option Nat
  | 0x01 => some 15
  | 0x02 => some 260
  | 0x03 => some 2
  | 0x04 => some 2
  | 0x05 => some 0
  | 0x06 => some 4
  | 0x07 => some 9
  | 0x08 => some 8
  | 0x09 => some 1
  | 0x0A => some 0
  | 0x0B => some 5
  | 0x0C => some 1
  | 0x0D => some 1
  | 0x0E => some 1
  | 0x0F => some 1
  | 0x10 => some 0
  | 0x11 => some 1
  | 0x12 => some 3
  | 0x13 => some 0
  | 0x14 => some 11
  | 0x15 => some 2
  | 0x16 => some 1
  | 0x17 => some 4
  | 0x18 => some 0
  | 0x19 => some 0
  | 0x1A => some 20
  | 0x1B => some 0
  | 0x1C => some 0
  | 0x1D => some 0
  | _ => none

/-- The order a code and its parameters stand for: the fields its rule lists, in the order listed (R181). -/
def orderOf (p : Port) (ps : List Byte) : Nat → Option Instr
  | 0x01 => some (.openImage p (num16 ps 0) (num8 ps 2) (num8 ps 3) (num8 ps 4) (numVersion ps 5) (num16 ps 9)
      (BitVec.ofNat 32 (num32 ps 11)))
  | 0x02 => some (.writeBlock p (num16 ps 0) (num16 ps 2) (ps.drop 4))
  | 0x03 => some (.closeImage p (num16 ps 0))
  | 0x04 => some (.dropImage p (num16 ps 0))
  | 0x05 => some (.listImages p)
  | 0x06 => some (.readImage p (num16 ps 0) (num16 ps 2))
  | 0x07 => some (.setProfile p (num8 ps 0)
      ⟨num8 ps 1, num8 ps 2, num8 ps 3, num16 ps 4, num8 ps 6, num8 ps 7, num8 ps 8⟩)
  | 0x08 => some (.setRule p (num8 ps 0)
      ⟨num8 ps 1, num8 ps 2, num8 ps 3, num16 ps 4, num8 ps 6, num8 ps 7⟩)
  | 0x09 => some (.removeRule p (num8 ps 0))
  | 0x0A => some (.readPlan p)
  | 0x0B => some (.pinUnit p (num8 ps 0) (num16 ps 1) (num8 ps 3) (num8 ps 4))
  | 0x0C => some (.unpinUnit p (num8 ps 0))
  | 0x0D => some (.releaseUnit p (num8 ps 0))
  | 0x0E => some (.readUnit p (num8 ps 0))
  | 0x0F => some (.readRoster p (num8 ps 0))
  | 0x10 => some (.sweepNow p)
  | 0x11 => some (.setMode p (num8 ps 0))
  | 0x12 => some (.setDeparture p (num8 ps 0) (num16 ps 1))
  | 0x13 => some (.powerWarning p)
  | 0x14 => some (.setLine p (num8 ps 0)
      ⟨num8 ps 1, num16 ps 2, num8 ps 4, num8 ps 5, num8 ps 6, num8 ps 7, num8 ps 8⟩ (num16 ps 9))
  | 0x15 => some (.readLine p (num8 ps 0) (num8 ps 1))
  | 0x16 => some (.resetLine p (num8 ps 0))
  | 0x17 => some (.setTime p (num32 ps 0))
  | 0x18 => some (.readStatus p)
  | 0x19 => some (.readEvents p)
  | 0x1A => some (.setEventMask p (ps.map BitVec.toNat))
  | 0x1B => some (.saveSettings p)
  | 0x1C => some (.reloadSettings p)
  | 0x1D => some (.reset p)
  | _ => none

/-- The bytes before a frame's CRC-16 field. -/
def frameBody (frame : List Byte) : List Byte := frame.take (frame.length - 2)

/-- The frame's length field agrees with the bytes received, and it is 5 to 300 (R162, Table 12.1). -/
def frameLengthOk (frame : List Byte) : Bool :=
  num16 frame 0 == frame.length && decide (5 ≤ frame.length) && decide (frame.length ≤ 300)

/-- R162's first four checks, in order, on one order frame, and the order it carries when they pass. -/
def decodeOrder (p : Port) (frame : List Byte) : Except OrderFault Instr :=
  if frameLengthOk frame = false then .error .badFrame
  else if (crc16 (frameBody frame)).toNat ≠ num16 frame (frame.length - 2) then .error .badFrame
  else
    match orderParamBytes (num8 frame 2) with
    | none => .error .badOrder
    | some n =>
      if frame.length ≠ n + 5 then .error .badFrame
      else
        match orderOf p ((frameBody frame).drop 3) (num8 frame 2) with
        | none => .error .badOrder
        | some i => .ok i

/-- A flag byte: 0 or 1, any other value lies outside its encoding (R181). -/
def flagOf : Nat → Option Bool
  | 0 => some false
  | 1 => some true
  | _ => none

/-- A loading mark by its presence byte (Table 12.7). -/
def loadingOf (ps : List Byte) : Option (Option LoadingMark) :=
  match flagOf (num8 ps 18) with
  | none => none
  | some false => some none
  | some true => some (some ⟨numVersion ps 19, BitVec.ofNat 32 (num32 ps 23), num16 ps 27⟩)

/-- A bank record from the bank-states byte (Table 12.7). -/
def bankOf (v : Version) (holds valid : Bool) : BankRecord := ⟨if holds then some v else none, valid⟩

/-- The payload of an IDENT (Table 12.7); none when a field lies outside its values. -/
def identOf (ps : List Byte) : Option Ident :=
  let states := ps[16]?.getD 0
  let boot := ps[17]?.getD 0
  if states.toNat ≥ 16 ∨ boot.toNat ≥ 4 then none
  else
    match loadingOf ps with
    | none => none
    | some mark => some
      { serial := num32 ps 0, classCode := num8 ps 4, hwRev := num8 ps 5, capacity := num16 ps 6,
        bank0 := bankOf (numVersion ps 8) (states.getLsbD 0) (states.getLsbD 1),
        bank1 := bankOf (numVersion ps 12) (states.getLsbD 2) (states.getLsbD 3),
        running := if boot.getLsbD 0 then .b1 else .b0, bootFault := boot.getLsbD 1, loading := mark }

/-- The payload of a FILL (Table 12.7). -/
def fillOf (ps : List Byte) : Option Fill :=
  match flagOf (num8 ps 2), num8 ps 3, num8 ps 4 with
  | some busy, 0, 0 => some ⟨num16 ps 0, busy, .accepted, .fresh⟩
  | some busy, 0, 1 => some ⟨num16 ps 0, busy, .accepted, .resume⟩
  | some busy, 1, 0 => some ⟨num16 ps 0, busy, .capacity, .fresh⟩
  | some busy, 1, 1 => some ⟨num16 ps 0, busy, .capacity, .resume⟩
  | some busy, 2, 0 => some ⟨num16 ps 0, busy, .refused, .fresh⟩
  | some busy, 2, 1 => some ⟨num16 ps 0, busy, .refused, .resume⟩
  | _, _, _ => none

/-- The kind a TAKEN answers, by its code in Table 12.5. -/
def takenKindOf : Nat → Option TakenKind
  | 0x03 => some .block
  | 0x05 => some .check
  | 0x06 => some .swap
  | 0x07 => some .revert
  | _ => none

/-- The payload of a TAKEN (Table 12.7). -/
def takenOf (ps : List Byte) : Option Taken :=
  match flagOf (num8 ps 2), takenKindOf (num8 ps 3) with
  | some busy, some k => some ⟨num16 ps 0, busy, k⟩
  | _, _ => none

def activityOf : Nat → Option Activity
  | 0 => some .idle
  | 1 => some .erase
  | 2 => some .program
  | 3 => some .check
  | _ => none

def checkResultOf : Nat → Option CheckResult
  | 0 => some .noResult
  | 1 => some .pass
  | 2 => some .fail
  | _ => none

def unitFaultOf : Nat → Option UnitFaultField
  | 0 => some .noFault
  | 1 => some .writeFault
  | 2 => some .sequence
  | 3 => some .capacity
  | _ => none

/-- The payload of a STATE (Table 12.7): readiness 0 is READY, 1 is BUSY. -/
def unitReportOf (ps : List Byte) : Option UnitReport :=
  match flagOf (num8 ps 0), activityOf (num8 ps 1), checkResultOf (num8 ps 6), unitFaultOf (num8 ps 7) with
  | some busy, some act, some res, some flt => some ⟨busy, act, num16 ps 2, num16 ps 4, res, flt⟩
  | _, _, _, _ => none

/-- The kind code of a reply (Table 12.5). -/
def CabinReply.code : CabinReply → Nat
  | .ident _ => 0x81
  | .fill _ => 0x82
  | .taken _ => 0x83
  | .state _ => 0x84

/-- The payload length of each reply kind (Table 12.5); none for a code that is no reply. -/
def replyPayloadBytes : Nat → Option Nat
  | 0x81 => some 29
  | 0x82 => some 5
  | 0x83 => some 4
  | 0x84 => some 8
  | _ => none

/-- The fields of a reply's payload, by its kind; none when a field lies outside the values of Table 12.7. -/
def replyOf (ps : List Byte) : Nat → Option CabinReply
  | 0x81 => (identOf ps).map .ident
  | 0x82 => (fillOf ps).map .fill
  | 0x83 => (takenOf ps).map .taken
  | 0x84 => (unitReportOf ps).map .state
  | _ => none

end Sys2Proof
end

