-- ==== Sys2Proof/Machine/State.lean ====
section
/-!
DEFINITION. The state of the ND3204, block by block (Table 2.1), as plain data, and the machine right after a full
reset. Fields marked MODEL are the model's own; every other field is one the manual names.
-/

namespace Sys2Proof.Machine

open Sys2Proof

/-! ### The unit roster (chapter 1) -/

/-- A unit's presence (Table 1.1). -/
inductive Presence where
  | present | silent | absent
  deriving DecidableEq, Repr, Inhabited

/-- The update states (Table 1.2). -/
inductive UpdateState where
  | inStep | pending | loading | staged | switching | fallback | held
  deriving DecidableEq, Repr, Inhabited

/-- Why a unit has no target (Table 1.1). -/
inductive TargetNote where
  | noNote | noRule | incompatible | tooLarge | noDowngrade
  deriving DecidableEq, Repr, Inhabited

/-- Where a target comes from (Table 1.1). -/
inductive Origin where
  | plan | pin
  deriving DecidableEq, Repr, Inhabited

/-- A unit's target (Table 1.1). -/
structure Target where
  imageId : Nat
  version : Version
  prio    : Nat
  origin  : Origin
  noRetry : Bool
  deriving DecidableEq, Repr, Inhabited

/-- A pin: an image, a priority class and a no-retry flag (section 2.4). -/
structure Pin where
  imageId : Nat
  prio    : Nat
  noRetry : Bool
  deriving DecidableEq, Repr, Inhabited

/-- The phase of a boot timer (R110). -/
inductive BootPhase where
  | first | second
  deriving DecidableEq, Repr, Inhabited

/-- A boot timer: seconds remaining and phase. Whether it is paused follows from the mode and the line (R110). `expired`
(MODEL): an expiry that came before the last restart has not been handled yet (R110). -/
structure BootTimer where
  seconds : Nat
  phase   : BootPhase
  expired : Bool := false
  deriving DecidableEq, Repr, Inhabited

/-- The progress of a REVERT (Table 6.1). -/
inductive RevertProgress where
  | idle | queued | taken
  deriving DecidableEq, Repr, Inhabited

/-- The outcomes of an activation (R18). -/
inductive InstallOutcome where
  | installed | reverted | lost
  deriving DecidableEq, Repr, Inhabited

/-- One record of a unit's install history (R18). -/
structure HistoryRecord where
  version : Version
  time    : Nat
  outcome : InstallOutcome
  deriving DecidableEq, Repr, Inhabited

/-- A roster entry (Table 1.1, Table 6.1, R31, R38). `probeDue` is a time of the model's clock. -/
structure Entry where
  line       : Line
  address    : Nat
  serial     : Nat
  classCode  : Nat
  hwRev      : Nat
  capacity   : Nat
  bank0      : BankRecord
  bank1      : BankRecord
  running    : Bank
  bootFault  : Bool
  loading    : Option LoadingMark
  presence   : Presence
  missed     : Nat
  profile    : Nat
  estimate   : Nat
  target     : Option Target
  note       : TargetNote
  yardPin    : Option Pin
  servicePin : Option Pin
  state      : UpdateState
  failCount  : Nat
  prior      : Option Version
  bootTimer  : Option BootTimer
  probeDue   : Option Nat
  revert     : RevertProgress
  history    : List HistoryRecord
  refused    : Option Nat
  owed       : Bool
  deriving DecidableEq, Repr, Inhabited

/-! ### The plan resolver (chapter 2) -/

/-- A class profile (Table 2.1). -/
structure Profile where
  used   : Bool
  cls    : Nat
  burst  : Nat
  seed   : Nat
  erase  : Nat
  verify : Nat
  boot   : Nat
  deriving DecidableEq, Repr, Inhabited

/-- A plan rule (Table 2.2). -/
structure PlanRule where
  cls       : Nat
  hwMin     : Nat
  hwMax     : Nat
  imageId   : Nat
  prio      : Nat
  downgrade : Bool
  deriving DecidableEq, Repr, Inhabited

/-- A record of a pin table (R28). -/
structure PinRecord where
  serial : Nat
  pin    : Pin
  deriving DecidableEq, Repr, Inhabited

/-! ### The transfer scheduler (chapter 3) -/

/-- The states of a job (Table 3.2). -/
inductive JobState where
  | queued | starting | sending | released | ready | verifying
  deriving DecidableEq, Repr, Inhabited

/-- What a RELEASED job's unit is busy with (Table 3.1). -/
inductive WaitKind where
  | erase | settle | burst
  deriving DecidableEq, Repr, Inhabited

/-- A job record (Table 3.1); the tag is its place in the pool. `busyLimit` is the limit fixed when the wait began
(R72); `pollDue` is a time of the model's clock. -/
structure Job where
  slot        : Nat
  serial      : Nat
  imageId     : Nat
  prio        : Nat
  noRetry     : Bool
  state       : JobState
  next        : Nat
  wait        : Option WaitKind
  deferred    : Bool
  everOpened  : Bool
  parking     : Bool
  retriesUsed : Nat
  pollDue     : Option Nat
  busyElapsed : Nat
  busyLimit   : Nat
  deriving DecidableEq, Repr, Inhabited

/-! ### The line engines (chapter 4) -/

/-- The states of a line (R81). -/
inductive LineState where
  | active | faulted | disabled
  deriving DecidableEq, Repr, Inhabited

/-- The settings of a line (Table 4.6). -/
structure LineSettings where
  rate      : Nat
  timeout   : Nat
  retry     : Nat
  openLimit : Nat
  swapLimit : Nat
  interval  : Nat
  enable    : Bool
  deriving DecidableEq, Repr, Inhabited

/-- What an exchange is made for (Table 4.1, R77). -/
inductive Purpose where
  | rosterProbe (slot : Nat)
  | fullProbe
  | activationProbe (slot : Nat)
  | recoveryProbe
  | load (tag : Nat) (mode : LoadMode)
  | burst (tag first count : Nat)
  | poll (tag : Nat)
  | check (tag : Nat)
  | swap (slot : Nat)
  | revert (slot : Nat)
  deriving DecidableEq, Repr, Inhabited

/-- Where an exchange stands: its burst being read, waiting for the idle gap, the `i`-th frame on the wire, in the
gap before the `i`-th frame of a burst, or waiting for or receiving the reply (R64, R66, R70). -/
inductive Phase where
  | reading
  | gap
  | sending (i : Nat)
  | between (i : Nat)
  | awaiting
  deriving DecidableEq, Repr, Inhabited

/-- The exchange in flight (R66, R68). Rate, timeout and limit are those it began with (R85), and so is `expected`, the
version that a SWAP's frame names: a retry sends the same frame (R68, R107). `framesOut` (MODEL): a frame of what it now
sends has been begun (R56 asks it). -/
structure Exchange where
  purpose   : Purpose
  address   : Nat
  serial    : Nat
  rate      : Nat
  timeout   : Nat
  limit     : Nat
  retries   : Nat
  phase     : Phase
  framesOut : Bool
  expected  : Option Version := none
  deriving DecidableEq, Repr, Inhabited

/-- The line buffer (section 4.3): one burst's blocks for one job. -/
structure LineBuffer where
  tag      : Nat
  first    : Nat
  count    : Nat
  complete : Bool
  blocks   : List (List Byte)
  deriving DecidableEq, Repr, Inhabited

/-- The two kinds of sweep (section 1.5). -/
inductive SweepKind where
  | roster | full
  deriving DecidableEq, Repr, Inhabited

/-- A sweep in progress: its kind, its cursor (a slot or an address), when its last probe ended or it started (R75),
and whether it has posted ROSTER_FULL (R6). -/
structure Sweep where
  kind       : SweepKind
  cursor     : Nat
  lastProbe  : Nat
  fullPosted : Bool
  deriving DecidableEq, Repr, Inhabited

/-- The eight statistics counters (Table 4.5). -/
structure Stats where
  framesSent      : Nat
  goodReplies     : Nat
  noReplies       : Nat
  parityErrors    : Nat
  framingErrors   : Nat
  crcErrors       : Nat
  retries         : Nat
  blocksDelivered : Nat
  deriving DecidableEq, Repr, Inhabited

/-- A pending charge: a slot and a serial (section 4.6). -/
structure Charge where
  slot   : Nat
  serial : Nat
  deriving DecidableEq, Repr, Inhabited

/-- One line engine with its class queues and open set (chapters 3 and 4). `sweepTimer` and `recoveryTimer` are the
times of the model's clock at which they expire, absent when stopped. `quiet`: the line has been idle for 2 character
times (R64). `startSweep`: the start-up full sweep has not ended (R177). `fullDue`: a full sweep is due and waits
(R88, R89). `wake` (MODEL): the arbiter is to choose before the step ends (R74). -/
structure LineEngine where
  settings      : LineSettings
  state         : LineState
  exchange      : Option Exchange
  buffer        : Option LineBuffer
  run           : Nat
  charges       : List Charge
  ready         : List Nat
  queue0        : List Nat
  queue1        : List Nat
  queue2        : List Nat
  queue3        : List Nat
  openSet       : List Nat
  sweep         : Option Sweep
  rosterDue     : Bool
  fullDue       : Bool
  startSweep    : Bool
  sweepTimer    : Option Nat
  recoveryTimer : Option Nat
  recoveryDue   : Bool
  stats         : Stats
  quiet         : Bool
  wake          : Bool
  deriving DecidableEq, Repr, Inhabited

/-! ### The time budget (chapter 5) and the depot time (section 10.4) -/

/-- The window state (R98). -/
inductive Window where
  | opened | closed
  deriving DecidableEq, Repr, Inhabited

/-- The countdown, its pending value, the window and the depot time. `nextTick` is the time of the model's clock at
which the next one-second tick falls (R96). -/
structure TimeBudget where
  countdown : Option Nat
  upcoming  : Option (Option Nat)
  window    : Window
  depotTime : Nat
  depotSet  : Bool
  nextTick  : Nat
  deriving DecidableEq, Repr, Inhabited

/-! ### The vehicle interface (chapter 9) -/

/-- The vehicle modes (Table 9.1). -/
inductive Mode where
  | inService | yard | quiet | halted
  deriving DecidableEq, Repr, Inhabited

/-- What made the mode HALTED (R152). -/
inductive HaltCause where
  | setMode | order | pin
  deriving DecidableEq, Repr, Inhabited

/-- The vehicle interface (R152). The hold is in ticks of 100 us, 0 to 300,000. -/
structure Vehicle where
  mode     : Mode
  hold     : Option Nat
  cause    : Option HaltCause
  asserted : Bool
  run      : Nat
  deriving DecidableEq, Repr, Inhabited

/-! ### The image store (chapter 7) -/

/-- The states of an image (Table 7.2). -/
inductive ImageState where
  | receiving | checking | stored | damaged | retiring
  deriving DecidableEq, Repr, Inhabited

/-- The state of one block of an image (Table 7.1). -/
inductive BlockState where
  | missing | writing | received
  deriving DecidableEq, Repr, Inhabited

/-- The state of one extent's identity fields (Table 7.1). -/
inductive TagState where
  | noTag | writing | written
  deriving DecidableEq, Repr, Inhabited

/-- The order whose final reply a block still owes: a port and the number of the order taken on it (R161). -/
structure Ticket where
  port : Port
  seq  : Nat
  deriving DecidableEq, Repr, Inhabited

/-- An image record (Table 7.1), with the close check's next block and running CRC-32 (R133), whether it was dropped
while its close mark was pending, and the DROP IMAGE orders that wait for it (R135, R136). -/
structure Image where
  id          : Nat
  state       : ImageState
  intake      : Option Port
  cls         : Nat
  hwMin       : Nat
  hwMax       : Nat
  version     : Version
  length      : Nat
  crc         : Word32
  blocks      : List BlockState
  received    : Nat
  extents     : List Nat
  tags        : List TagState
  markPending : Bool
  markFailed  : Bool
  jobCount    : Nat
  checkNext   : Nat
  checkCrc    : Word32
  dropped     : Bool
  droppers    : List Ticket
  deriving DecidableEq, Repr, Inhabited

/-- The store: the directory, the free list, the dirty list and the bad set (section 7.2). -/
structure Store where
  images : List Image
  free   : List Nat
  dirty  : List Nat
  bad    : List Nat
  deriving DecidableEq, Repr, Inhabited

/-! ### The flash engine (chapter 8) -/

/-- What a program of class 2 writes: an extent's identity fields, a block (with the WRITE BLOCK that waits for it), a
close mark or a drop mark (Table 8.1). -/
inductive ProgramKind where
  | identity
  | block (b : Nat) (ticket : Ticket)
  | closeMark
  | dropMark
  deriving DecidableEq, Repr, Inhabited

/-- A program request of the store. `live` is false once the store no longer wants its outcome (R130, R135). -/
structure Program where
  image    : Nat
  position : Nat
  extent   : Nat
  kind     : ProgramKind
  addr     : Nat
  bytes    : List Byte
  live     : Bool
  deriving DecidableEq, Repr, Inhabited

/-- A line read (R70). -/
structure LineRead where
  tag     : Nat
  imageId : Nat
  first   : Nat
  count   : Nat
  deriving DecidableEq, Repr, Inhabited

/-- A close-check read: the image and the block (R133). -/
structure CheckRead where
  imageId : Nat
  block   : Nat
  deriving DecidableEq, Repr, Inhabited

/-- The operations of Table 8.1. A `live` of false marks a read whose data is discarded (R149, R135). -/
inductive FlashOp where
  | lineRead (l : Line) (r : LineRead) (live : Bool)
  | program (p : Program)
  | checkRead (r : CheckRead) (live : Bool)
  | settingsRead
  | settingsErase
  | settingsPage (page : Nat)
  | tagRead (extent : Nat)
  | erase (extent : Nat)
  deriving DecidableEq, Repr, Inhabited

/-- The flash engine (section 8.2): the operation in progress, the suspended erase, the suspension count, the requests
waiting by class, the recovery hold, and whether the suspend command is on its way (R146). -/
structure FlashEngine where
  op         : Option FlashOp
  suspended  : Option FlashOp
  suspCount  : Nat
  suspending : Bool
  readA      : Option LineRead
  readB      : Option LineRead
  programs   : List Program
  checks     : List CheckRead
  class4     : Option FlashOp
  class5     : Option Nat
  hold       : Bool
  deriving DecidableEq, Repr, Inhabited

/-! ### Events and ports (chapter 10) -/

/-- The fault kinds of a unit fault (R61). -/
inductive FaultKind where
  | capacity | refused | writeFault | sequence | checkFail
  deriving DecidableEq, Repr, Inhabited

/-- The cause of a JOB_FAILED (R60, R61). -/
inductive JobFailCause where
  | noReply | bad | busyTimeout
  | unitFault (k : FaultKind)
  deriving DecidableEq, Repr, Inhabited

/-- The cause of a CLOSE_FAILED (R141), with the CRC-32 computed for a mismatch. -/
inductive CloseFailCause where
  | mismatch (computed : Word32)
  | markFailed | abandoned | dropped
  deriving DecidableEq, Repr, Inhabited

/-- The cause of a STORE_FAULT (R141). -/
inductive StoreFaultCause where
  | program | tagAbandoned | erase | pageAbandoned
  deriving DecidableEq, Repr, Inhabited

/-- How a line's part of a SWEEP NOW ended (R17). -/
inductive SweepOutcome where
  | complete | cut | notSwept
  deriving DecidableEq, Repr, Inhabited

/-- The operation a SAVE_DONE reports (R175, R176). -/
inductive SettingsTask where
  | save | reload
  deriving DecidableEq, Repr, Inhabited

/-- The twenty events with their qualifiers (Table 10.2). -/
inductive Event where
  | started (intakeLost loadFailed : Bool)
  | unitJoined (slot : Nat)
  | unitLost (slot : Nat)
  | unitChanged (slot : Nat) (running : Option Version)
  | rosterFull (l : Line) (address : Nat)
  | staged (slot : Nat)
  | installed (slot : Nat) (version : Version)
  | reverted (slot : Nat) (version : Version) (running : Option Version)
  | unitHeld (slot : Nat)
  | jobFailed (slot tag imageId : Nat) (cause : JobFailCause) (next : Nat)
  | windowCutoff (countdown guardSeconds : Nat)
  | lineFault (l : Line)
  | lineRecovered (l : Line)
  | sweepDone (a b : SweepOutcome)
  | closeDone (imageId : Nat)
  | closeFailed (imageId : Nat) (cause : CloseFailCause)
  | storeLow (free dirty bad : Nat)
  | storeFault (extent : Nat) (cause : StoreFaultCause) (imageId : Option Nat)
  | saveDone (task : SettingsTask) (saveFailed loadFailed : Bool)
  | modeExpired (mode : Mode)
  deriving DecidableEq, Repr, Inhabited

/-- One event flag of a port (R168). -/
structure EventFlag where
  isSet : Bool
  count : Nat
  qual  : Option Event
  deriving DecidableEq, Repr, Inhabited

/-- The statuses of a reply (Table 12.3). -/
inductive Status where
  | done | accepted | pending | busy | denied | badFrame | badOrder | range
  | noRoom | exists | notFound | state | incomplete | blockWritten | starting | halted
  deriving DecidableEq, Repr, Inhabited

/-- A line's part of an outstanding SWEEP NOW (R17). -/
inductive Cover where
  | outstanding
  | ended (o : SweepOutcome)
  deriving DecidableEq, Repr, Inhabited

/-- The kinds of long order (R165). -/
inductive LongOrder where
  | closeImage (id : Nat)
  | saveSettings
  | reloadSettings
  | sweepNow (a b : Cover)
  | reset
  deriving DecidableEq, Repr, Inhabited

/-- One line of LIST IMAGES (R141). -/
structure ImageSummary where
  id       : Nat
  state    : ImageState
  version  : Version
  length   : Nat
  received : Nat
  jobCount : Nat
  deriving DecidableEq, Repr, Inhabited

/-- What READ IMAGE returns (R141). -/
structure ImageReport where
  id          : Nat
  state       : ImageState
  intake      : Option Port
  cls         : Nat
  hwMin       : Nat
  hwMax       : Nat
  version     : Version
  length      : Nat
  crc         : Word32
  received    : Nat
  markPending : Bool
  markFailed  : Bool
  jobCount    : Nat
  extents     : List Nat
  missing     : List Nat
  deriving DecidableEq, Repr, Inhabited

/-- What READ UNIT returns: the entry, its job with its tag, and whether its boot timer is paused (R171, R122). -/
structure UnitDetail where
  entry  : Entry
  job    : Option (Nat × Job)
  paused : Bool
  deriving DecidableEq, Repr, Inhabited

/-- One slot of READ ROSTER (R171). -/
structure RosterSummary where
  line      : Line
  address   : Nat
  serial    : Nat
  presence  : Presence
  state     : UpdateState
  failCount : Nat
  running   : Option Version
  tag       : Option Nat
  deriving DecidableEq, Repr, Inhabited

/-- What READ LINE returns (R87). -/
structure LineReport where
  settings  : LineSettings
  guardTime : Nat
  state     : LineState
  run       : Nat
  charges   : Nat
  sweep     : Option (SweepKind × Nat)
  openJobs  : Nat
  swapping  : Nat
  stats     : Stats
  deriving DecidableEq, Repr, Inhabited

/-- The derived state of the flash engine (R143). -/
inductive EngineState where
  | idle | reading | programming | erasing | eraseSuspended
  deriving DecidableEq, Repr, Inhabited

/-- One line's part of READ STATUS (R170). -/
structure LineStatus where
  state    : LineState
  openJobs : Nat
  swapping : Nat
  deriving DecidableEq, Repr, Inhabited

/-- What READ STATUS returns (R170). -/
structure StatusReport where
  starting   : Bool
  mode       : Mode
  hold       : Option Nat
  cause      : Option HaltCause
  asserted   : Bool
  countdown  : Option Nat
  window     : Window
  guardTime  : Nat
  depotTime  : Nat
  depotSet   : Bool
  lineA      : LineStatus
  lineB      : LineStatus
  occupied   : Nat
  jobs       : Nat
  heldCount  : Nat
  free       : Nat
  dirty      : Nat
  bad        : Nat
  records    : Nat
  engine     : EngineState
  suspCount  : Nat
  waiting    : List Bool
  slot       : Option LongOrder
  mask       : List Bool
  deriving DecidableEq, Repr, Inhabited

/-- The data of a reply, as fields; `encodeData` (Formats.lean) gives their bytes (R181). -/
inductive ReplyData where
  | empty
  | count (n : Nat)
  | position (n : Nat)
  | profile (p : Profile)
  | lines (a b : LineSettings) (guardTime : Nat)
  | countdown (c : Option Nat)
  | mask (m : List Bool)
  | time (t : Nat)
  | images (free dirty bad : Nat) (xs : List ImageSummary)
  | image (r : ImageReport)
  | plan (rules : List PlanRule) (profiles : List Profile)
  | unitData (u : UnitDetail)
  | roster (xs : List (Option RosterSummary))
  | line (r : LineReport)
  | statusData (r : StatusReport)
  | events (xs : List EventFlag)
  deriving DecidableEq, Repr, Inhabited

/-- A reply: a status and the data of its order (R161). -/
structure Reply where
  status : Status
  data   : ReplyData
  deriving DecidableEq, Repr, Inhabited

/-- One management port (chapter 10). `seq` (MODEL) counts the orders taken, so that a final reply finds out whether
its order is still the latest (R161). `delivered`: the reply in the buffer has been delivered. `sending` and `unsent`
serve the Service port: the frame on STXD, and whether the buffer's reply waits behind it. `output` (MODEL): the bytes
last clocked out or sent. `order` is the order buffer: the bytes of an order frame that is not yet complete. -/
structure PortState where
  seq       : Nat
  order     : List Byte
  reply     : Option Reply
  delivered : Bool
  sending   : Option Reply
  unsent    : Bool
  output    : List Byte
  slot      : Option LongOrder
  flags     : List EventFlag
  mask      : List Bool
  deriving DecidableEq, Repr, Inhabited

/-! ### Settings and start-up (chapter 11) -/

/-- The operation of the settings unit (R172), with the port it serves. -/
inductive SettingsOp where
  | idle
  | loading
  | saving (p : Port)
  | reloading (p : Port)
  deriving DecidableEq, Repr, Inhabited

/-- The settings unit: its operation, and the record formed by a SAVE SETTINGS (R175). -/
structure SettingsUnit where
  op       : SettingsOp
  snapshot : List Byte
  deriving DecidableEq, Repr, Inhabited

/-- The identity fields and marks of a well-formed tag (R139). -/
structure TagInfo where
  id       : Nat
  version  : Version
  length   : Nat
  position : Nat
  total    : Nat
  close    : Option (Word32 × Nat × Nat × Nat)
  drop     : Bool
  deriving DecidableEq, Repr, Inhabited

/-- The class of a tag read by the scan (R139). -/
inductive TagClass where
  | erased
  | wellFormed (t : TagInfo)
  | broken
  deriving DecidableEq, Repr, Inhabited

/-- Where the start-up phase stands (R177). -/
inductive Stage where
  | deviceReset | load | scan | sweeps | running
  deriving DecidableEq, Repr, Inhabited

/-- The start-up phase: its stage, the two notes STARTED carries, and the tags the scan has read (R139, R177). -/
structure Startup where
  stage      : Stage
  intakeLost : Bool
  loadFailed : Bool
  scanned    : List (Nat × TagClass)
  deriving DecidableEq, Repr, Inhabited

/-! ### The whole part -/

/-- The state of the part. MODEL fields: `pending`, the queue of commands; `now`, the model's clock in ticks of
100 us since the full reset; `flashUse`, the number of free flash contents used. `flash` is what the attached flash
holds: byte addresses strictly rising, no entry equal to the erased byte (log entry 3). -/
structure State where
  pending      : List Instr
  now          : Nat
  time         : TimeBudget
  guardTime    : Nat
  veh          : Vehicle
  startup      : Startup
  roster       : List (Option Entry)
  heldSerials  : List Nat
  profiles     : List Profile
  rules        : List PlanRule
  yardPins     : List PinRecord
  servicePins  : List PinRecord
  jobs         : List (Option Job)
  lineA        : LineEngine
  lineB        : LineEngine
  store        : Store
  eng          : FlashEngine
  flash        : List Host.Cell
  flashUse     : Nat
  settings     : SettingsUnit
  portY        : PortState
  portV        : PortState
  portS        : PortState
  deriving DecidableEq, Repr, Inhabited

/-- Why a step stops with a fault. -/
inductive Fault where
  /-- Raised by a command that ends a flash operation whose bytes lie outside the 8 MiB of the flash (section 7.1).
  Safe: no reachable state has such an operation, and the manual gives no such address. -/
  | outsideFlash
  deriving DecidableEq, Repr, Inhabited

/-- Why a step is refused. -/
inductive Refusal where
  /-- Raised by an arm of `exec` whose command has no meaning yet; no arm does. Safe. -/
  | notModelled (mnemonic : String)
  deriving DecidableEq, Repr, Inhabited

/-! ### Full reset -/

/-- The factory default of profile 0 (Table 2.1). -/
def defaultProfile0 : Profile :=
  { used := true, cls := 0, burst := 1, seed := 500, erase := 20, verify := 10, boot := 60 }

/-- The factory default of profiles 1 to 15 (Table 2.1). -/
def defaultProfile : Profile :=
  { used := false, cls := 0, burst := 1, seed := 500, erase := 20, verify := 10, boot := 60 }

/-- The factory profiles (R174). -/
def defaultProfiles : List Profile := defaultProfile0 :: List.replicate 15 defaultProfile

/-- The factory line settings (Table 4.6). -/
def defaultLineSettings : LineSettings :=
  { rate := 1, timeout := 1000, retry := 3, openLimit := 4, swapLimit := 2, interval := 1, enable := true }

/-- The factory guard (Table 4.6). -/
def defaultGuard : Nat := 300

/-- The statistics at 0 (R83). -/
def zeroStats : Stats :=
  { framesSent := 0, goodReplies := 0, noReplies := 0, parityErrors := 0, framingErrors := 0, crcErrors := 0,
    retries := 0, blocksDelivered := 0 }

/-- A line engine at full reset (R89): ACTIVE, as the factory enable flag is set; the start-up full sweep is due. -/
def resetLineEngine : LineEngine :=
  { settings := defaultLineSettings, state := .active, exchange := none, buffer := none, run := 0, charges := [],
    ready := [], queue0 := [], queue1 := [], queue2 := [], queue3 := [], openSet := [], sweep := none,
    rosterDue := false, fullDue := true, startSweep := true, sweepTimer := none, recoveryTimer := none,
    recoveryDue := false, stats := zeroStats, quiet := true, wake := false }

/-- An event flag at full reset (R168). -/
def clearFlag : EventFlag := { isSet := false, count := 0, qual := none }

/-- A port at full reset (R161, R165, R168, R169). -/
def resetPort : PortState :=
  { seq := 0, order := [], reply := none, delivered := false, sending := none, unsent := false, output := [],
    slot := none, flags := List.replicate 20 clearFlag, mask := List.replicate 20 true }

/-- The flash engine at full reset, after its first action, the device reset command (R143). -/
def resetEngine : FlashEngine :=
  { op := none, suspended := none, suspCount := 0, suspending := false, readA := none, readB := none, programs := [],
    checks := [], class4 := none, class5 := none, hold := true }

/-- The machine right after a full reset with a blank flash (R177, and the full-reset values of every chapter): the
start-up phase has begun, the device reset command has been issued and its recovery hold stands. -/
def State.reset : State :=
  { pending := []
    now := 0
    time := { countdown := none, upcoming := none, window := .opened, depotTime := 0, depotSet := false,
              nextTick := Config.ticksPerSecond }
    guardTime := defaultGuard
    veh := { mode := .inService, hold := none, cause := none, asserted := false, run := 0 }
    startup := { stage := .deviceReset, intakeLost := false, loadFailed := false, scanned := [] }
    roster := List.replicate Config.slots none
    heldSerials := []
    profiles := defaultProfiles
    rules := []
    yardPins := []
    servicePins := []
    jobs := List.replicate Config.tags none
    lineA := resetLineEngine
    lineB := resetLineEngine
    store := { images := [], free := [], dirty := [], bad := [] }
    eng := resetEngine
    flash := []
    flashUse := 0
    settings := { op := .loading, snapshot := [] }
    portY := resetPort
    portV := resetPort
    portS := resetPort }

end Sys2Proof.Machine
end

