-- ==== Sys2Proof/Machine/Nor.lean ====
section
/-!
DEFINITION. The attached flash as a memory: a list of (address, byte) pairs, addresses strictly rising, no entry equal
to the erased byte 0xFF, which is what an unlisted address reads as (sections 7.1 and 12.4; log entries 3 and 5).
-/

namespace Sys2Proof.Machine

/-- The byte at an address: an unlisted address reads as erased. -/
def flashRead : List Host.Cell → Nat → Byte
  | [], _ => Config.erasedByte
  | (a, b) :: m, addr => if a = addr then b else flashRead m addr

/-- The bytes at `count` addresses from `addr` on. -/
def flashReadRange (m : List Host.Cell) (addr : Nat) : Nat → List Byte
  | 0 => []
  | n + 1 => flashRead m addr :: flashReadRange m (addr + 1) n

/-- Drops the entry at an address, if there is one. -/
def flashClear : List Host.Cell → Nat → List Host.Cell
  | [], _ => []
  | (a, b) :: m, addr => if a = addr then m else (a, b) :: flashClear m addr

/-- Puts an entry at its place among the rising addresses, in place of one at the same address. -/
def flashInsert : List Host.Cell → Nat → Byte → List Host.Cell
  | [], addr, v => [(addr, v)]
  | (a, b) :: m, addr, v =>
    if addr < a then (addr, v) :: (a, b) :: m
    else if addr = a then (addr, v) :: m
    else (a, b) :: flashInsert m addr v

/-- Writes one byte, keeping the canonical form: writing the erased byte removes the entry. -/
def flashWrite (m : List Host.Cell) (addr : Nat) (v : Byte) : List Host.Cell :=
  if v = Config.erasedByte then flashClear m addr else flashInsert m addr v

/-- Writes a run of bytes from `addr` on. -/
def flashWriteAll (m : List Host.Cell) (addr : Nat) : List Byte → List Host.Cell
  | [] => m
  | v :: vs => flashWriteAll (flashWrite m addr v) (addr + 1) vs

/-- Erases a run of bytes: every entry from `addr` up to `addr + count` is dropped. -/
def flashErase (m : List Host.Cell) (addr count : Nat) : List Host.Cell :=
  m.filter fun c => !(decide (addr ≤ c.1) && decide (c.1 < addr + count))

/-- Leaves a run of bytes with free contents: what a cut-off program or erase leaves (R150, R151). -/
def flashSpoil (m : List Host.Cell) (use addr count : Nat) : List Host.Cell :=
  flashWriteAll m addr ((List.range count).map fun i => Config.flashFree use (addr + i))

/-- The canonical form: addresses strictly rising from `lo` on, no entry equal to the erased byte. -/
def flashWfFrom (lo : Nat) : List Host.Cell → Bool
  | [] => true
  | (a, b) :: m => decide (lo ≤ a) && (b != Config.erasedByte) && flashWfFrom (a + 1) m

/-- The flash is in its canonical form. -/
def flashWf (m : List Host.Cell) : Bool := flashWfFrom 0 m

/-- The address of a page of an extent (section 7.1). -/
def pageAddr (extent page : Nat) : Nat := extent * Config.extentBytes + page * Config.pageBytes

/-- The size of the flash in bytes, 8 MiB (section 7.1). -/
def flashBytes : Nat := Config.extents * Config.extentBytes

end Sys2Proof.Machine
end

