-- ==== Sys2Proof/Machine/Ops.lean ====
section
/-!
DEFINITION. The named operations over State that every block uses: reading and writing a roster entry, a job, a line
engine, a port and an image record; posting events (R168); placing and finishing replies (R161); and the model's
clock.
-/

namespace Sys2Proof.Machine

open Sys2Proof

/-! ### Lines and ports by name -/

/-- The engine of a line. -/
def State.line (s : State) : Line → LineEngine
  | .A => s.lineA
  | .B => s.lineB

/-- Changes the engine of a line. -/
def State.modLine (s : State) (l : Line) (f : LineEngine → LineEngine) : State :=
  match l with
  | .A => { s with lineA := f s.lineA }
  | .B => { s with lineB := f s.lineB }

/-- The state of a port. -/
def State.port (s : State) : Port → PortState
  | .Y => s.portY
  | .V => s.portV
  | .S => s.portS

/-- Changes the state of a port. -/
def State.modPort (s : State) (p : Port) (f : PortState → PortState) : State :=
  match p with
  | .Y => { s with portY := f s.portY }
  | .V => { s with portV := f s.portV }
  | .S => { s with portS := f s.portS }

/-- Asks the arbiter of a line to choose before the step ends (R74). -/
def State.wake (s : State) (l : Line) : State := s.modLine l fun e => { e with wake := true }

/-- Asks both arbiters to choose (R74). -/
def State.wakeBoth (s : State) : State := (s.wake .A).wake .B

/-! ### Roster entries and jobs -/

/-- The entry in a slot; none when the slot is free or does not exist (R1). -/
def State.entry (s : State) (slot : Nat) : Option Entry := (s.roster[slot]?).join

/-- Writes a slot. -/
def State.setEntry (s : State) (slot : Nat) (e : Option Entry) : State := { s with roster := s.roster.set slot e }

/-- Changes the entry in a slot, if there is one. -/
def State.modEntry (s : State) (slot : Nat) (f : Entry → Entry) : State :=
  match s.entry slot with
  | none => s
  | some e => s.setEntry slot (some (f e))

/-- The job with a tag; none when the tag is free or does not exist (R39). -/
def State.job (s : State) (tag : Nat) : Option Job := (s.jobs[tag]?).join

/-- Writes a tag. -/
def State.setJob (s : State) (tag : Nat) (j : Option Job) : State := { s with jobs := s.jobs.set tag j }

/-- Changes the job with a tag, if there is one. -/
def State.modJob (s : State) (tag : Nat) (f : Job → Job) : State :=
  match s.job tag with
  | none => s
  | some j => s.setJob tag (some (f j))

/-- The tag of a slot's job (R40: a roster entry has at most one). -/
def State.tagOf (s : State) (slot : Nat) : Option Nat :=
  (List.range Config.tags).find? fun t => (s.job t).any fun j => j.slot == slot

/-- The slot of the entry at a line and address (R1: at most one). -/
def State.slotAt (s : State) (l : Line) (address : Nat) : Option Nat :=
  (List.range Config.slots).find? fun i => (s.entry i).any fun e => e.line == l && e.address == address

/-- The running version of an entry: the version recorded for its running bank (section 1.1). -/
def Entry.runningRecord (e : Entry) : BankRecord :=
  match e.running with
  | .b0 => e.bank0
  | .b1 => e.bank1

/-- The record of the inactive bank: the bank other than the running bank (section 1.1). -/
def Entry.inactiveRecord (e : Entry) : BankRecord :=
  match e.running with
  | .b0 => e.bank1
  | .b1 => e.bank0

/-- The running version of an entry, if its running bank holds one (section 1.1). -/
def Entry.runningVersion (e : Entry) : Option Version := e.runningRecord.version

/-- The entry's inactive bank holds the version, valid (section 1.1). -/
def Entry.holdsInactive (e : Entry) (v : Version) : Bool :=
  e.inactiveRecord.version == some v && e.inactiveRecord.valid

/-- The entry is in SWITCHING or FALLBACK. -/
def Entry.activating (e : Entry) : Bool := e.state == .switching || e.state == .fallback

/-- The profile with an index (section 2.2). -/
def State.profile (s : State) (index : Nat) : Profile := (s.profiles[index]?).getD defaultProfile0

/-- The swap count of a line: its entries in SWITCHING or FALLBACK (R105). -/
def State.swapCount (s : State) (l : Line) : Nat :=
  s.roster.countP fun r => r.any fun e => e.line == l && e.activating

/-- The number of occupied slots. -/
def State.occupied (s : State) : Nat := s.roster.countP Option.isSome

/-! ### Image records -/

/-- The directory record with an id. -/
def State.image (s : State) (id : Nat) : Option Image := s.store.images.find? fun r => r.id == id

/-- Changes the store. -/
def State.modStore (s : State) (f : Store → Store) : State := { s with store := f s.store }

/-- Changes the directory record with an id. -/
def State.modImage (s : State) (id : Nat) (f : Image → Image) : State :=
  s.modStore fun st => { st with images := st.images.map fun r => if r.id == id then f r else r }

/-- The image with an id is STORED. -/
def State.isStored (s : State) (id : Nat) : Bool := (s.image id).any fun r => r.state == .stored

/-- Changes the flash engine. -/
def State.modEng (s : State) (f : FlashEngine → FlashEngine) : State := { s with eng := f s.eng }

/-! ### Modes and phases -/

/-- The vehicle mode is HALTED. -/
def State.halted (s : State) : Bool := s.veh.mode == .halted

/-- The part is in its start-up phase (R164). -/
def State.starting (s : State) : Bool := s.startup.stage != .running

/-- A line engine takes action only from its start-up full sweep on (R84). -/
def State.linesRun (s : State) : Bool := s.startup.stage == .sweeps || s.startup.stage == .running

/-- The boot timer of an entry is paused: HALTED, or its line FAULTED or DISABLED (R110). -/
def State.bootPaused (s : State) (e : Entry) : Bool := s.halted || (s.line e.line).state != .active

/-! ### Events -/

/-- The place of an event in Table 10.2. -/
def Event.index : Event → Nat
  | .started _ _ => 0
  | .unitJoined _ => 1
  | .unitLost _ => 2
  | .unitChanged _ _ => 3
  | .rosterFull _ _ => 4
  | .staged _ => 5
  | .installed _ _ => 6
  | .reverted _ _ _ => 7
  | .unitHeld _ => 8
  | .jobFailed _ _ _ _ _ => 9
  | .windowCutoff _ _ => 10
  | .lineFault _ => 11
  | .lineRecovered _ => 12
  | .sweepDone _ _ => 13
  | .closeDone _ => 14
  | .closeFailed _ _ => 15
  | .storeLow _ _ _ => 16
  | .storeFault _ _ _ => 17
  | .saveDone _ _ _ => 18
  | .modeExpired _ => 19

/-- A flag after a posting: SET, its count one higher (stopping at 255), the new qualifier (R168). -/
def EventFlag.posted (f : EventFlag) (e : Event) : EventFlag :=
  { isSet := true, count := min 255 (f.count + 1), qual := some e }

/-- A port after an event is posted to it (R168). -/
def PortState.posted (p : PortState) (e : Event) : PortState :=
  { p with flags := p.flags.modify e.index fun f => f.posted e }

/-- Posts an event to one port: SWEEP_DONE alone is posted so (R168). -/
def State.postTo (s : State) (p : Port) (e : Event) : State := s.modPort p fun q => q.posted e

/-- Posts an event to all three ports (R168). -/
def State.post (s : State) (e : Event) : State := ((s.postTo .Y e).postTo .V e).postTo .S e

/-- The attention line of a port is driven low: at least one flag is SET and enabled (R169). -/
def PortState.attention (p : PortState) : Bool := (List.zipWith (fun f m => f.isSet && m) p.flags p.mask).any id

/-! ### Replies -/

/-- Places a reply in a port's buffer. On the Service port it is sent at once, or waits behind the frame being sent
(R161). A PENDING reply that still waits when its outcome comes is sent once, as the final reply (the model's choice, log
entry 38). -/
def PortState.placed (q : PortState) (p : Port) (r : Reply) : PortState :=
  match p with
  | .S =>
    match q.sending with
    | none => { q with reply := some r, delivered := false, sending := some r, unsent := false }
    | some _ => { q with reply := some r, delivered := false, unsent := true }
  | .Y => { q with reply := some r, delivered := false }
  | .V => { q with reply := some r, delivered := false }

/-- Answers the order being taken. -/
def State.answer (s : State) (p : Port) (st : Status) (d : ReplyData) : State :=
  s.modPort p fun q => q.placed p { status := st, data := d }

/-- Answers with a refusal, which carries no data (section 12.2). -/
def State.refuse (s : State) (p : Port) (st : Status) : State := s.answer p st .empty

/-- The order now being taken on a port, as a ticket for a reply that is PENDING (R161). -/
def State.ticket (s : State) (p : Port) : Ticket := { port := p, seq := (s.port p).seq }

/-- A PENDING reply becomes final, unless a later order has replaced it (R161). -/
def State.finish (s : State) (t : Ticket) (st : Status) (d : ReplyData) : State :=
  if (s.port t.port).seq = t.seq then s.answer t.port st d else s

/-- Finishes several orders with one status. -/
def State.finishAll (s : State) (ts : List Ticket) (st : Status) : State :=
  ts.foldl (fun s t => s.finish t st .empty) s

/-- Empties a port's long-order slot (R165). -/
def State.emptySlot (s : State) (p : Port) : State := s.modPort p fun q => { q with slot := none }

/-! ### The clock -/

/-- Lets time pass: the mode hold runs down (R154) and the waits of RELEASED and VERIFYING jobs grow (R72). -/
def Job.aged (j : Job) (d : Nat) : Job :=
  match j.state with
  | .released => { j with busyElapsed := j.busyElapsed + d }
  | .verifying => { j with busyElapsed := j.busyElapsed + d }
  | _ => j

/-- `d` ticks of 100 us pass (log entry 1). -/
def State.advance (s : State) (d : Nat) : State :=
  { s with
    now := s.now + d
    veh := { s.veh with hold := s.veh.hold.map fun h => h - d }
    jobs := s.jobs.map fun j => j.map fun j => j.aged d }

/-- The clock stands at `t` at least: an event that falls due at `t` shows that `t` has come (log entry 1). -/
def State.advanceTo (s : State) (t : Nat) : State := s.advance (t - s.now)

end Sys2Proof.Machine
end

