-- ==== Sys2Proof/Machine/Budget.lean ====
section
/-!
DEFINITION. The arithmetic of the Time Budget (chapter 5): the program-time estimate (R91), the job estimate (R93 to
R95), the choice of LOAD mode it shares with the line engine (R47), the admission decision (R101), and the line rate
(R63).
-/

namespace Sys2Proof.Machine

open Sys2Proof

/-- Division rounded up. -/
def ceilDiv (a b : Nat) : Nat := (a + b - 1) / b

/-- A value held within a range. -/
def clampTo (lo hi n : Nat) : Nat := max lo (min hi n)

/-- The estimate after a sample: rises by an eighth of the difference rounded up, falls by an eighth rounded down,
then clamped into 1 to 20000 ticks (R91). -/
def newEstimate (e sample : Nat) : Nat :=
  clampTo 1 20000 (if e < sample then e + ceilDiv (sample - e) 8 else e - (e - sample) / 8)

/-- The rate divider of a rate code (R63). -/
def divider (rate : Nat) : Nat := 2 ^ (min rate 3 + 1)

/-- The line time of one burst cycle, in bits (R94). -/
def burstBits (k : Nat) : Nat := 2937 * k + 429

/-- The cost of one burst cycle, in microseconds (R94). -/
def burstCost (d k timeout estimate : Nat) : Nat :=
  ceilDiv (burstBits k * d * 10000) 18432 + 2 * timeout + 100 * estimate

/-- The bursts still to go (R95). -/
def burstsLeft (left k : Nat) : Nat := ceilDiv left k

/-- The job estimate in milliseconds from the inputs of R93 (R95). `erase` is absent when R93 does not count it. -/
def jobEstimate (d k timeout estimate left : Nat) (erase : Option Nat) (verify : Nat) : Nat :=
  min 4294967295
    (ceilDiv (burstsLeft left k * burstCost d k timeout estimate) 1000 + 1000 * erase.getD 0 + 1000 * verify)

/-- The entry's loading mark names the image: its version and CRC-32 are the image's (R47). -/
def markNames (e : Entry) (img : Image) : Bool :=
  e.loading.any fun m => m.version == img.version && m.crc == img.crc

/-- The mode of a job's LOAD (R47). -/
def loadMode (j : Job) (e : Entry) (img : Image) : LoadMode :=
  if j.next > 0 ∨ markNames e img then .resume else .fresh

/-- The estimate of a job as it stands (R93). -/
def State.jobTime (s : State) (j : Job) (e : Entry) (img : Image) : Nat :=
  let pr := s.profile e.profile
  let ln := (s.line e.line).settings
  jobEstimate (divider ln.rate) pr.burst ln.timeout e.estimate (img.length - j.next)
    (match loadMode j e img with
     | .fresh => some pr.erase
     | .resume => none) pr.verify

/-- The admission decision (R101): the cases in order. -/
def State.admits (s : State) (j : Job) (e : Entry) (img : Image) : Bool :=
  if s.veh.mode ≠ .yard ∧ s.veh.mode ≠ .quiet then false
  else
    match s.time.countdown with
    | none => true
    | some c =>
      if s.time.window = .closed then false
      else decide (s.jobTime j e img + 1000 * s.guardTime ≤ c * 1000)

/-- The window state that the countdown and the guard give (R98). -/
def windowOf (countdown : Option Nat) (guardTime : Nat) : Window :=
  match countdown with
  | none => .opened
  | some c => if c ≤ guardTime then .closed else .opened

/-- The ticks of a sweep interval code: 2, 5, 10 or 20 s (R12, Table 4.6). -/
def sweepTicks (code : Nat) : Nat :=
  match code with
  | 0 => 2 * Config.ticksPerSecond
  | 1 => 5 * Config.ticksPerSecond
  | 2 => 10 * Config.ticksPerSecond
  | _ => 20 * Config.ticksPerSecond

/-- The reply timeout covers the idle gap of 2 character times at the rate (R63, R64): 22 bit times, of `D/1.8432` us. -/
def timeoutCoversGap (timeout rate : Nat) : Bool := decide (22 * divider rate * 10000 ≤ timeout * 18432)

end Sys2Proof.Machine
end

