-- ==== Sys2Proof/Machine/Exchanges.lean ====
section
/-!
DEFINITION. Exchanges on a cabin line (sections 4.1 to 4.3): beginning one, its attempts and frames (R64 to R68),
abandoning one (R69), the line read of a burst (R70, R71, R149), and the statistics (R83).
-/

namespace Sys2Proof

open Sys2Proof.Machine

/-! ### Receptions -/

/-- The characters received before an idle gap broke the run (R64). -/
def Reception.run (r : Reception) : List RxChar :=
  match r.chars with
  | [] => []
  | c :: cs => c :: cs.takeWhile fun x => !x.gap

/-- The number of characters of the frame by its length field, once the field has been received (R64, Table 12.4). -/
def Reception.size (r : Reception) : Option Nat :=
  let bs := r.run.map fun c => charData c.bits
  if 5 ≤ bs.length then some (num16 bs 3 + 7) else none

/-- The characters of the frame: to its end as its length field gives it, or until it broke. Characters after its end are
discarded and counted nowhere (R64). -/
def Reception.frame (r : Reception) : List RxChar :=
  match r.size with
  | none => r.run
  | some n => r.run.take n

/-- The frame broke before its length was complete (R64, R67). -/
def Reception.broken (r : Reception) : Bool := !r.size.any fun n => n ≤ r.run.length

/-- The bytes of the frame. A character lost by overrun stands as one byte of it (the model's choice, log entry 40). -/
def Reception.bytes (r : Reception) : List Byte := r.frame.map fun c => charData c.bits

/-- A character of the frame has a parity error (R67). -/
def Reception.parityError (r : Reception) : Bool := r.frame.any fun c => !c.overrun && charParityBad c.bits

/-- A character of the frame has its stop bit low, or was lost by overrun (R67). -/
def Reception.framingError (r : Reception) : Bool := r.frame.any fun c => c.overrun || charStopLow c.bits

end Sys2Proof

namespace Sys2Proof.Machine

open Sys2Proof

/-- A 16-bit counter that stops at 65535 (R83). -/
def bump (n k : Nat) : Nat := min 65535 (n + k)

/-- Changes the statistics of a line. -/
def State.modStats (s : State) (l : Line) (f : Stats → Stats) : State :=
  s.modLine l fun e => { e with stats := f e.stats }

/-- The job tag an exchange serves. -/
def Purpose.tag : Purpose → Option Nat
  | .load t _ => some t
  | .burst t _ _ => some t
  | .poll t => some t
  | .check t => some t
  | .rosterProbe _ => none
  | .fullProbe => none
  | .activationProbe _ => none
  | .recoveryProbe => none
  | .swap _ => none
  | .revert _ => none

/-- The slot a job-less exchange serves. -/
def Purpose.slot : Purpose → Option Nat
  | .rosterProbe i => some i
  | .activationProbe i => some i
  | .swap i => some i
  | .revert i => some i
  | .load _ _ => none
  | .burst _ _ _ => none
  | .poll _ => none
  | .check _ => none
  | .fullProbe => none
  | .recoveryProbe => none

/-- The exchange is a burst. -/
def Purpose.isBurst : Purpose → Bool
  | .burst _ _ _ => true
  | _ => false

/-- The number of frames an attempt sends: a burst's BLOCK frames, or one (R65). -/
def Purpose.frames : Purpose → Nat
  | .burst _ _ k => k
  | _ => 1

/-- The frame is on the wire: the driver is enabled (R63). -/
def Phase.onWire : Phase → Bool
  | .sending _ => true
  | _ => false

/-- The driver enable output of a line, LA_DE or LB_DE (R63). -/
def State.driverEnabled (s : State) (l : Line) : Bool := (s.line l).exchange.any fun x => x.phase.onWire

/-! ### Line reads -/

/-- The line read waiting for a line (section 8.3). -/
def FlashEngine.read (f : FlashEngine) : Line → Option LineRead
  | .A => f.readA
  | .B => f.readB

/-- Puts or withdraws a line's waiting read. -/
def FlashEngine.setRead (f : FlashEngine) (l : Line) (r : Option LineRead) : FlashEngine :=
  match l with
  | .A => { f with readA := r }
  | .B => { f with readB := r }

/-- The operation in progress, marked discarded when it is a read of the line (R149). -/
def FlashOp.discardRead (l : Line) : FlashOp → FlashOp
  | .lineRead l' r live => .lineRead l' r (if l' = l then false else live)
  | .program p => .program p
  | .checkRead r live => .checkRead r live
  | .settingsRead => .settingsRead
  | .settingsErase => .settingsErase
  | .settingsPage n => .settingsPage n
  | .tagRead x => .tagRead x
  | .erase x => .erase x

/-- The line no longer wants its read: withdrawn before it starts, discarded after (R145, R149). -/
def State.dropRead (s : State) (l : Line) : State :=
  s.modEng fun f => { f.setRead l none with op := f.op.map (FlashOp.discardRead l) }

/-- Requests the read of a burst into the line buffer (R70). -/
def State.requestRead (s : State) (l : Line) (r : LineRead) : State :=
  (s.modLine l fun e =>
      { e with buffer := some { tag := r.tag, first := r.first, count := r.count, complete := false, blocks := [] } }).modEng
    fun f => f.setRead l (some r)

/-! ### Attempts -/

/-- Starts an attempt: its first frame goes out when the line has been idle for 2 character times, and waits for the
gap otherwise (R64). Each frame begun raises frames sent (R83). -/
def State.startAttempt (s : State) (l : Line) : State :=
  match (s.line l).exchange with
  | none => s
  | some x =>
    if (s.line l).quiet then
      s.modLine l fun e =>
        { e with
          exchange := some { x with phase := .sending 0, framesOut := true }
          quiet := false
          stats := { e.stats with framesSent := bump e.stats.framesSent 1 } }
    else s.modLine l fun e => { e with exchange := some { x with phase := .gap } }

/-- The version a SWAP's frame names: its entry's target's as the exchange begins (R107). -/
def State.swapVersion (s : State) : Purpose → Option Version
  | .swap slot => ((s.entry slot).bind Entry.target).map Target.version
  | .rosterProbe _ => none
  | .fullProbe => none
  | .activationProbe _ => none
  | .recoveryProbe => none
  | .load _ _ => none
  | .burst _ _ _ => none
  | .poll _ => none
  | .check _ => none
  | .revert _ => none

/-- Begins an exchange on a free line (R66): a burst first reads its blocks (R70), any other starts its first
attempt. Rate, timeout, retry limit and a SWAP's version are kept from now on (R68, R85). -/
def State.beginExchange (s : State) (l : Line) (purpose : Purpose) (address serial limit : Nat) : State :=
  let x : Exchange :=
    { purpose := purpose, address := address, serial := serial, rate := (s.line l).settings.rate,
      timeout := (s.line l).settings.timeout, limit := limit, retries := 0, phase := .reading, framesOut := false,
      expected := s.swapVersion purpose }
  let t := s.modLine l fun e => { e with exchange := some x }
  if purpose.isBurst then t else t.startAttempt l

/-- The exchange is over: the line is free, its buffer is emptied (R70), and the arbiter chooses again (R74). -/
def State.endExchange (s : State) (l : Line) : State :=
  s.modLine l fun e => { e with exchange := none, buffer := none, wake := true }

/-- Abandons the exchange in flight on a line (R69): no outcome; a frame being sent is cut; a recovery probe stays
due (log entry 16). An abandoned probe of a sweep is not the last probe that ended, from which R75 counts its 250 ms (the
model's choice, log entry 36). -/
def State.abandon (s : State) (l : Line) : State :=
  match (s.line l).exchange with
  | none => s
  | some x =>
    ((s.modLine l fun e =>
        { e with
          quiet := e.quiet && !x.phase.onWire
          recoveryDue := e.recoveryDue || x.purpose == .recoveryProbe }).endExchange l).dropRead l

/-- Abandons the exchange in flight on a line when it meets a condition. -/
def State.abandonIf (s : State) (l : Line) (c : Exchange → Bool) : State :=
  if (s.line l).exchange.any c then s.abandon l else s

/-- Abandons the exchange that serves a job, on whichever line it is (R55, R58). -/
def State.abandonJob (s : State) (tag : Nat) : State :=
  (s.abandonIf .A fun x => x.purpose.tag == some tag).abandonIf .B fun x => x.purpose.tag == some tag

/-- Abandons the exchange that serves an entry (R7, R69): a probe of it, a SWAP or a REVERT. That a full-sweep or recovery
probe in flight to the entry's address serves it is the model's choice (log entry 46). -/
def State.abandonEntry (s : State) (slot : Nat) (e : Entry) : State :=
  s.abandonIf e.line fun x =>
    x.purpose.slot == some slot || ((x.purpose == .fullProbe || x.purpose == .recoveryProbe) && x.address == e.address)

/-- The kind of reply an exchange expects (Table 4.1), by its code. -/
def Purpose.replyCode : Purpose → Nat
  | .rosterProbe _ => 0x81
  | .fullProbe => 0x81
  | .activationProbe _ => 0x81
  | .recoveryProbe => 0x81
  | .load _ _ => 0x82
  | .burst _ _ _ => 0x83
  | .poll _ => 0x84
  | .check _ => 0x83
  | .swap _ => 0x83
  | .revert _ => 0x83

/-- The tag an exchange's frames carry: the job's, or 255 (R65). -/
def Purpose.frameTag (p : Purpose) : Nat := p.tag.getD 255

/-- The kind a TAKEN must answer (R67). -/
def Purpose.takenKind : Purpose → Option TakenKind
  | .burst _ _ _ => some .block
  | .check _ => some .check
  | .swap _ => some .swap
  | .revert _ => some .revert
  | .rosterProbe _ => none
  | .fullProbe => none
  | .activationProbe _ => none
  | .recoveryProbe => none
  | .load _ _ => none
  | .poll _ => none

/-- The mode of the LOAD an exchange sent. -/
def Purpose.loadMode : Purpose → Option LoadMode
  | .load _ m => some m
  | _ => none

/-- R67's content check on the decoded fields: an IDENT's capacity, a FILL's mode, a TAKEN's kind answered, a busy
STATE's activity. -/
def contentOk (p : Purpose) : CabinReply → Bool
  | .ident i => decide (1 ≤ i.capacity)
  | .fill f => p.loadMode == some f.mode
  | .taken t => p.takenKind == some t.answered
  | .state u => !u.busy || u.activity != .idle

/-- A decoded reply passes R67's kind and content checks for an exchange. -/
def replyFits (p : Purpose) (r : CabinReply) : Bool := r.code == p.replyCode && contentOk p r

/-- Which statistics counter a BAD reply raises (R67). -/
inductive BadCounter where
  | parity | framing | crc | none
  deriving DecidableEq, Repr

/-- R67's checks on a reception, in order: the counter a BAD reply raises, or the valid reply. -/
def judgeReception (x : Exchange) (r : Reception) : Except BadCounter CabinReply :=
  if r.parityError then .error .parity
  else if r.framingError || r.broken then .error .framing
  else if (crc16 (frameBody r.bytes)).toNat ≠ num16 r.bytes (r.bytes.length - 2) then .error .crc
  else if num8 r.bytes 0 ≠ x.address then .error .none
  else if num8 r.bytes 1 ≠ x.purpose.replyCode then .error .none
  else if replyPayloadBytes (num8 r.bytes 1) ≠ some (num16 r.bytes 3) then .error .none
  else if num8 r.bytes 2 ≠ x.purpose.frameTag then .error .none
  else
    match replyOf ((frameBody r.bytes).drop 5) (num8 r.bytes 1) with
    | none => .error .none
    | some reply => if contentOk x.purpose reply then .ok reply else .error .none

/-- Raises the counter of a BAD reply (R67, R83). -/
def Stats.bad (st : Stats) : BadCounter → Stats
  | .parity => { st with parityErrors := bump st.parityErrors 1 }
  | .framing => { st with framingErrors := bump st.framingErrors 1 }
  | .crc => { st with crcErrors := bump st.crcErrors 1 }
  | .none => st

/-- Counts one retry of the exchange in flight: in the statistics, in the exchange, and in the job it serves
(R68, Table 3.1). -/
def State.countRetry (s : State) (l : Line) (x : Exchange) : State :=
  let t := (s.modStats l fun st => { st with retries := bump st.retries 1 }).modLine l fun e =>
    { e with exchange := some { x with retries := x.retries + 1 } }
  match x.purpose.tag with
  | none => t
  | some tag => t.modJob tag fun j => { j with retriesUsed := x.retries + 1 }

end Sys2Proof.Machine
end

