-- ==== Sys2Proof/Machine/Jobs.lean ====
section
/-!
DEFINITION. The Transfer Scheduler's operations (chapter 3): class queues and open sets (R42, R43), creating a job
(R44), parking it (R54), removing it (R58), starting a wait (R72), and parking at a cutoff (R56).
-/

namespace Sys2Proof.Machine

open Sys2Proof

/-! ### Class queues -/

/-- The class queue of a priority class (R42). -/
def LineEngine.queue (e : LineEngine) : Nat → List Nat
  | 0 => e.queue0
  | 1 => e.queue1
  | 2 => e.queue2
  | _ => e.queue3

/-- Changes the class queue of a priority class. -/
def LineEngine.modQueue (e : LineEngine) (prio : Nat) (f : List Nat → List Nat) : LineEngine :=
  match prio with
  | 0 => { e with queue0 := f e.queue0 }
  | 1 => { e with queue1 := f e.queue1 }
  | 2 => { e with queue2 := f e.queue2 }
  | _ => { e with queue3 := f e.queue3 }

/-- A tag leaves every collection of a line: its queues, its open set, its READY order. -/
def LineEngine.dropTag (e : LineEngine) (tag : Nat) : LineEngine :=
  { e with
    queue0 := e.queue0.filter (· != tag)
    queue1 := e.queue1.filter (· != tag)
    queue2 := e.queue2.filter (· != tag)
    queue3 := e.queue3.filter (· != tag)
    openSet := e.openSet.filter (· != tag)
    ready := e.ready.filter (· != tag) }

/-- A tag leaves the collections of both lines. -/
def State.dropTag (s : State) (tag : Nat) : State :=
  (s.modLine .A fun e => e.dropTag tag).modLine .B fun e => e.dropTag tag

/-- A tag joins the tail of a class queue, and the arbiter chooses again (R42, R74). -/
def State.queueTail (s : State) (l : Line) (prio tag : Nat) : State :=
  s.modLine l fun e => { e.modQueue prio (fun q => q ++ [tag]) with wake := true }

/-- A tag joins the head of a class queue, and the arbiter chooses again (R42, R74). -/
def State.queueHead (s : State) (l : Line) (prio tag : Nat) : State :=
  s.modLine l fun e => { e.modQueue prio (fun q => tag :: q) with wake := true }

/-- The line of a job: the line of its unit's entry (section 3.2). -/
def State.jobLine (s : State) (j : Job) : Line :=
  match s.entry j.slot with
  | none => .A
  | some e => e.line

/-! ### Creating jobs -/

/-- An entry waits for a job (R44). -/
def State.waitsForJob (s : State) (slot : Nat) : Bool :=
  match s.entry slot with
  | none => false
  | some e =>
    e.state == .pending && (s.tagOf slot).isNone && e.presence != .absent && (s.line e.line).state != .disabled
      && e.target.any fun t => s.isStored t.imageId

/-- The lowest-numbered free tag (R44). -/
def State.freeTag (s : State) : Option Nat := (List.range Config.tags).find? fun t => (s.job t).isNone

/-- The waiting entry in the lowest-numbered slot (R44). -/
def State.waitingSlot (s : State) : Option Nat := (List.range Config.slots).find? fun i => s.waitsForJob i

/-- A new job (R44). -/
def newJob (slot serial : Nat) (t : Target) : Job :=
  { slot := slot, serial := serial, imageId := t.imageId, prio := t.prio, noRetry := t.noRetry, state := .queued,
    next := 0, wait := none, deferred := false, everOpened := false, parking := false, retriesUsed := 0,
    pollDue := none, busyElapsed := 0, busyLimit := 0 }

/-- Creates one job: the lowest waiting slot takes the lowest free tag, which joins the tail of its class queue, and
the image's job count rises by 1 (R41, R44). -/
def State.createJob (s : State) : State :=
  match s.freeTag, s.waitingSlot with
  | some tag, some slot =>
    match s.entry slot with
    | none => s
    | some e =>
      match e.target with
      | none => s
      | some t =>
        ((s.setJob tag (some (newJob slot e.serial t))).queueTail e.line t.prio tag).modImage t.imageId fun r =>
          { r with jobCount := r.jobCount + 1 }
  | _, _ => s

/-- Creates jobs until no tag is free or no entry waits: at most one for each tag (R44). -/
def State.createJobs (s : State) : State := Nat.repeat State.createJob Config.tags s

/-! ### Parking and removing -/

/-- A job's fields when it is parked (R54). -/
def Job.parked (j : Job) : Job :=
  { j with
    state := .queued, pollDue := none, wait := none, retriesUsed := 0, busyElapsed := 0, busyLimit := 0,
    parking := false }

/-- Parks an open job at once: its exchange in flight is abandoned, its tag leaves the open set and joins the head of
its class queue (R54, R55). -/
def State.parkJob (s : State) (tag : Nat) : State :=
  match s.job tag with
  | none => s
  | some j =>
    (((s.abandonJob tag).dropTag tag).setJob tag (some j.parked)).queueHead (s.jobLine j) j.prio tag

/-- Parks several jobs one after another. -/
def State.parkAll (s : State) (tags : List Nat) : State := tags.foldl State.parkJob s

/-- Parks every open job of a line: newest first, so that they stand at their queues' heads in the order in which
they had been opened (R54, R55). -/
def State.parkLine (s : State) (l : Line) : State := s.parkAll (s.line l).openSet.reverse

/-- Parks the newest-opened jobs of a line down to its open limit (R43). -/
def State.parkToLimit (s : State) (l : Line) : State :=
  s.parkAll ((s.line l).openSet.drop (s.line l).settings.openLimit).reverse

/-- Removes a job: its tag leaves its collections and is freed, an exchange in flight for it is abandoned, and its
image's job count falls by 1 (R41, R58). -/
def State.removeJob (s : State) (tag : Nat) : State :=
  match s.job tag with
  | none => s
  | some j =>
    (((s.abandonJob tag).dropTag tag).setJob tag none).modImage j.imageId fun r => { r with jobCount := r.jobCount - 1 }

/-- Removes a slot's job, if it has one. -/
def State.removeJobOf (s : State) (slot : Nat) : State :=
  match s.tagOf slot with
  | none => s
  | some tag => s.removeJob tag

/-- A transition request from LOADING to PENDING: applied when the entry carries the serial and is in LOADING
(R3, R59). -/
def State.loadingToPending (s : State) (slot serial : Nat) : State :=
  s.modEntry slot fun e => if e.serial = serial ∧ e.state = .loading then { e with state := .pending } else e

/-! ### Waits and readiness -/

/-- A job becomes READY: last in the line's READY order, and the arbiter chooses again (R50, R74). -/
def State.makeReady (s : State) (l : Line) (tag : Nat) : State :=
  (s.modJob tag fun j =>
      { j with state := .ready, pollDue := none, wait := none, busyElapsed := 0, busyLimit := 0 }).modLine l fun e =>
    { e with ready := e.ready.filter (· != tag) ++ [tag], wake := true }

/-- The ticks to a wait's first poll (Table 4.2). -/
def firstPoll (k : WaitKind) (estimate : Nat) : Nat :=
  match k with
  | .burst => estimate
  | .settle => estimate
  | .erase => Config.slowPollTicks

/-- The ticks to a wait's next poll after a busy STATE (Table 4.2). -/
def nextPoll (k : WaitKind) (estimate : Nat) : Nat :=
  match k with
  | .burst => max 10 (estimate / 4)
  | .settle => max 10 (estimate / 4)
  | .erase => Config.slowPollTicks

/-- The busy limit of a wait, in ticks (Table 4.2). -/
def waitLimit (k : WaitKind) (estimate erase : Nat) : Nat :=
  match k with
  | .burst => max 1000 (16 * estimate)
  | .settle => max 1000 (16 * estimate)
  | .erase => 2 * erase * Config.ticksPerSecond

/-- A job takes RELEASED with a wait kind: busy elapsed 0, its busy limit fixed, its first poll set due (R48, R49,
R72). -/
def State.startWait (s : State) (tag : Nat) (e : Entry) (k : WaitKind) : State :=
  s.modJob tag fun j =>
    { j with
      state := .released, wait := some k, busyElapsed := 0
      busyLimit := waitLimit k e.estimate (s.profile e.profile).erase
      pollDue := some (s.now + firstPoll k e.estimate) }

/-- A job takes VERIFYING: its first poll is due at once when the unit is not busy (R51, R72). -/
def State.startVerify (s : State) (tag : Nat) (e : Entry) (busy : Bool) : State :=
  s.modJob tag fun j =>
    { j with
      state := .verifying, wait := none, busyElapsed := 0
      busyLimit := 2 * (s.profile e.profile).verify * Config.ticksPerSecond
      pollDue := some (s.now + if busy then Config.slowPollTicks else 0) }

/-! ### Cutoff -/

/-- The exchange in flight on a line serves the job and has begun a frame of what it now sends, or is not a burst. R56 has
no row for an exchange that still waits for the idle gap: a burst there parks at once, as one being read does, and a CHECK or
POLL there is let finish (the model's choice, log entry 18). -/
def State.framesOut (s : State) (l : Line) (tag : Nat) : Bool :=
  (s.line l).exchange.any fun x => x.purpose.tag == some tag && (x.framesOut || !x.purpose.isBurst)

/-- Parks one open job at a cutoff, or marks it to park at its next safe point (R56). -/
def State.cutoffJob (s : State) (l : Line) (tag : Nat) : State :=
  match s.job tag with
  | none => s
  | some j =>
    match j.state with
    | .ready => s.parkJob tag
    | .queued => s
    | .starting => s.modJob tag fun j => { j with parking := true }
    | .released | .verifying | .sending =>
      if s.framesOut l tag then s.modJob tag fun j => { j with parking := true } else s.parkJob tag

/-- Parks the open jobs of a line at a cutoff, newest first (R54, R56). -/
def State.cutoffLine (s : State) (l : Line) : State :=
  (s.line l).openSet.reverse.foldl (fun s t => s.cutoffJob l t) s

/-- Takes a new window state (R98): a closing posts WINDOW_CUTOFF and parks the open jobs (R99), a reopening lets the
arbiters choose again (R100), an unchanged state has no effect. -/
def State.judgeWindow (s : State) : State :=
  match s.time.window, windowOf s.time.countdown s.guardTime with
  | .opened, .closed =>
    ((({ s with time := { s.time with window := .closed } }).post
        (.windowCutoff (s.time.countdown.getD 0) s.guardTime)).cutoffLine .A).cutoffLine .B
  | .closed, .opened => ({ s with time := { s.time with window := .opened } }).wakeBoth
  | .opened, .opened => s
  | .closed, .closed => s

end Sys2Proof.Machine
end

