-- ==== Sys2Proof/Machine/Plan.lean ====
section
/-!
DEFINITION. The Plan Resolver (chapter 2): the profile lookup (R11), the candidate image (R34, R35), the update state
(R36), the job's part (R37), resolution for one entry (R31, R33) and for all units (R32).
-/

namespace Sys2Proof.Machine

open Sys2Proof

/-! ### Versions and profiles -/

/-- One version is lower than another: major first, then minor, then build (R20). -/
def versionLt (a b : Version) : Bool :=
  if a.major ≠ b.major then a.major < b.major
  else if a.minor ≠ b.minor then a.minor < b.minor
  else a.build < b.build

/-- The lowest-index used profile among 1 to 15 with the class code, or profile 0 (R11, R21). -/
def lookupProfile (profiles : List Profile) (cls : Nat) : Nat :=
  match (List.range 15).find? fun i => (profiles[i + 1]?).any fun p => p.used && p.cls == cls with
  | none => 0
  | some i => i + 1

/-- The lookup of R11 for one entry: a changed index takes the new profile's seed; an unchanged index takes the seed
only when `reseed` names it (a SET PROFILE that changed that profile's seed). -/
def State.lookupEntry (s : State) (reseed : Option Nat) (e : Entry) : Entry :=
  let i := lookupProfile s.profiles e.classCode
  if i ≠ e.profile then { e with profile := i, estimate := (s.profile i).seed }
  else if reseed = some i then { e with estimate := (s.profile i).seed }
  else e

/-- The lookup of R11 for every occupied entry. -/
def State.lookupAll (s : State) (reseed : Option Nat) : State :=
  { s with roster := s.roster.map fun r => r.map (s.lookupEntry reseed) }

/-! ### The candidate -/

/-- What resolution decides from: the target, or none, and the note (R34, R35). -/
structure Decision where
  target : Option Target
  note   : TargetNote
  deriving DecidableEq, Repr

/-- How an image id stands for an entry (R35): not usable, STORED, or retained with the version of the current
target. -/
inductive Usable where
  | no
  | stored (img : Image)
  | retained (version : Version)
  deriving DecidableEq, Repr

/-- The version that an entry in LOADING or STAGED retains, when its current target names the image by id: whatever
the image's directory state (R35). -/
def Entry.retains (e : Entry) (id : Nat) : Option Version :=
  if e.state = .loading ∨ e.state = .staged then (e.target.filter fun t => t.imageId == id).map Target.version else none

/-- How an image id stands for an entry (R35). -/
def State.usable (s : State) (e : Entry) (id : Nat) : Usable :=
  match e.retains id with
  | some v => .retained v
  | none =>
    match (s.image id).filter fun r => r.state == .stored with
    | some r => .stored r
    | none => .no

/-- The image admits the entry's class and hardware revision (R34, R35). -/
def compatible (e : Entry) (r : Image) : Bool :=
  r.cls == e.classCode && decide (r.hwMin ≤ e.hwRev) && decide (e.hwRev ≤ r.hwMax)

/-- The image fits the entry's banks and is not its refused image (R34, R35, R38). -/
def fitsEntry (e : Entry) (r : Image) : Bool := decide (r.length ≤ e.capacity) && e.refused != some r.id

/-- The pin that decides: the service pin when the entry has one, and otherwise the yard pin (R34). -/
def Entry.pin (e : Entry) : Option Pin :=
  match e.servicePin with
  | some p => some p
  | none => e.yardPin

/-- The target a pin gives, or the note of the first test failed (R34). -/
def State.decidePin (s : State) (e : Entry) (p : Pin) : Decision :=
  let target (v : Version) : Decision :=
    { target := some { imageId := p.imageId, version := v, prio := p.prio, origin := .pin, noRetry := p.noRetry },
      note := .noNote }
  match s.usable e p.imageId with
  | .no => { target := none, note := .noRule }
  | .retained v => target v
  | .stored r =>
    if compatible e r = false then { target := none, note := .incompatible }
    else if fitsEntry e r = false then { target := none, note := .tooLarge }
    else target r.version

/-- A plan rule matches an entry (R35). -/
def ruleMatches (e : Entry) (r : PlanRule) : Bool :=
  r.cls == e.classCode && decide (r.hwMin ≤ e.hwRev) && decide (e.hwRev ≤ r.hwMax)

/-- The version is a downgrade of the entry's running version (R20, R35). -/
def downgrades (e : Entry) (v : Version) : Bool := e.runningVersion.any fun rv => versionLt v rv

/-- What one matching rule gives: a target's version, or a skip with or without a note (R35). -/
def State.tryRule (s : State) (e : Entry) (r : PlanRule) : Except (Option TargetNote) Version :=
  let last (v : Version) : Except (Option TargetNote) Version :=
    if downgrades e v && !r.downgrade then .error (some .noDowngrade) else .ok v
  match s.usable e r.imageId with
  | .no => .error none
  | .retained v => last v
  | .stored img =>
    if compatible e img = false then .error (some .incompatible)
    else if fitsEntry e img = false then .error (some .tooLarge)
    else last img.version

/-- The rules in list order: the first to pass gives the target; otherwise the first skip with a note names the
obstacle, or NO_RULE (R35). `first` is the note of the first such skip so far. -/
def State.decideRules (s : State) (e : Entry) (first : Option TargetNote) : List PlanRule → Decision
  | [] => { target := none, note := first.getD .noRule }
  | r :: rs =>
    if ruleMatches e r then
      match s.tryRule e r with
      | .ok v =>
        { target := some { imageId := r.imageId, version := v, prio := r.prio, origin := .plan, noRetry := false },
          note := .noNote }
      | .error n =>
        s.decideRules e (match first with
          | some m => some m
          | none => n) rs
    else s.decideRules e first rs

/-- The candidate for an entry: from its pins if it has one, and otherwise from the plan (R34). -/
def State.candidate (s : State) (e : Entry) : Decision :=
  match e.pin with
  | some p => s.decidePin e p
  | none => s.decideRules e none s.rules

/-! ### The outcome -/

/-- The update state that a target gives (R36). -/
def stateFor (e : Entry) : Option Target → UpdateState
  | none => .inStep
  | some t =>
    if e.runningVersion = some t.version then .inStep
    else if e.holdsInactive t.version then .staged
    else .pending

/-- A job kept by resolution takes the target's priority class and no-retry flag; a QUEUED job whose class changes
moves: never opened to the tail, parked to the head of the new class's queue (R37). -/
def State.retargetJob (s : State) (l : Line) (tag : Nat) (j : Job) (t : Target) : State :=
  let u := s.modJob tag fun j => { j with prio := t.prio, noRetry := t.noRetry }
  if j.state = .queued ∧ j.prio ≠ t.prio then
    if j.everOpened then (u.dropTag tag).queueHead l t.prio tag else (u.dropTag tag).queueTail l t.prio tag
  else u

/-- Writes the decided target, note and state (R36). -/
def Entry.decided (e : Entry) (d : Decision) (st : UpdateState) : Entry :=
  { e with target := d.target, note := d.note, state := st }

/-- An entry becomes STAGED: the event is posted when it enters from another state, and the arbiter chooses again
(R36, R74). -/
def State.enterStaged (s : State) (slot : Nat) (e : Entry) : State :=
  if e.state = .staged then s else (s.post (.staged slot)).wake e.line

/-- Resolution of an entry in IN_STEP, PENDING, LOADING or STAGED (R34 to R37). -/
def State.applyDecision (s : State) (slot : Nat) (e : Entry) (d : Decision) : State :=
  match stateFor e d.target, d.target with
  | .pending, some t =>
    match s.tagOf slot with
    | none => s.setEntry slot (some (e.decided d .pending))
    | some tag =>
      match s.job tag with
      | none => s.setEntry slot (some (e.decided d .pending))
      | some j =>
        if j.imageId = t.imageId then (s.setEntry slot (some (e.decided d e.state))).retargetJob e.line tag j t
        else (s.removeJob tag).setEntry slot (some (e.decided d .pending))
  | .staged, _ => ((s.removeJobOf slot).setEntry slot (some (e.decided d .staged))).enterStaged slot e
  | st, _ => (s.removeJobOf slot).setEntry slot (some (e.decided d st))

/-- Resolution for one entry (R31): deferred in SWITCHING and FALLBACK, skipped in HELD (R33). -/
def State.resolve (s : State) (slot : Nat) : State :=
  match s.entry slot with
  | none => s
  | some e =>
    match e.state with
    | .switching => s.setEntry slot (some { e with owed := true })
    | .fallback => s.setEntry slot (some { e with owed := true })
    | .held => s
    | .inStep | .pending | .loading | .staged => (s.applyDecision slot e (s.candidate e)).createJobs

/-- Resolution for all units, in ascending slot order (R32). -/
def State.resolveAll (s : State) : State := (List.range Config.slots).foldl State.resolve s

/-- After a job's removal has left an entry in PENDING with a target that is not STORED, resolution runs for it
(R45; log entry 10); then the freed tag may be taken at once (R58, step 5). -/
def State.afterRemoval (s : State) (slot : Nat) : State :=
  match s.entry slot with
  | none => s.createJobs
  | some e =>
    if e.state = .pending ∧ e.target.any (fun t => !s.isStored t.imageId) then s.resolve slot else s.createJobs

end Sys2Proof.Machine
end

