-- ==== Sys2Proof/Machine/Held.lean ====
section
/-!
DEFINITION. Held units and charges (R2, R3, R4), the pin tables (R28), and an entry becoming ABSENT (R15).
-/

namespace Sys2Proof.Machine

open Sys2Proof

/-- Some occupied entry carries the serial. -/
def State.carries (s : State) (serial : Nat) : Bool := s.roster.any fun r => r.any fun e => e.serial == serial

/-- A serial joins the held-serial list at its tail unless it is on it; a full list first loses its oldest serial that
no occupied entry carries (R2). -/
def State.joinHeld (s : State) (serial : Nat) : State :=
  if serial ∈ s.heldSerials then s
  else
    let kept := if s.heldSerials.length < Config.maxPins then s.heldSerials
      else s.heldSerials.eraseP fun x => !s.carries x
    { s with heldSerials := kept ++ [serial] }

/-- The fields of an entry that has become HELD (R4, R105): a queued REVERT is kept. -/
def Entry.asHeld (e : Entry) : Entry :=
  { e with
    state := .held, failCount := 3, target := none, note := .noNote, bootTimer := none, probeDue := none, owed := false
    revert := if e.revert = .queued then .queued else .idle }

/-- An entry becomes HELD (R4): its job is removed (R58), its target cleared, its boot timer removed, its serial joins the
held-serial list when `join` says so, and UNIT_HELD is posted. -/
def State.becomeHeld (s : State) (slot : Nat) (join : Bool) : State :=
  match s.entry slot with
  | none => s
  | some e =>
    let t := (((s.removeJobOf slot).setEntry slot (some e.asHeld)).createJobs).post (.unitHeld slot)
    if join then t.joinHeld e.serial else t

/-- A fail-count charge to the entry in a slot: an entry already HELD keeps its count, and a count that reaches 3 makes
the entry HELD (R3, R4). -/
def State.chargeSlot (s : State) (slot : Nat) : State :=
  match s.entry slot with
  | none => s
  | some e =>
    if e.state = .held then s
    else if 3 ≤ e.failCount + 1 then s.becomeHeld slot true
    else s.setEntry slot (some { e with failCount := e.failCount + 1 })

/-- A charge naming a slot and a serial: discarded when the slot is free or carries another serial (R3). -/
def State.charge (s : State) (c : Charge) : State :=
  if (s.entry c.slot).any fun e => e.serial == c.serial then s.chargeSlot c.slot else s

/-- An entry becomes ABSENT (R15): its job is removed, a LOADING entry becomes PENDING, and UNIT_LOST is posted. -/
def State.becomeAbsent (s : State) (slot : Nat) : State :=
  match s.entry slot with
  | none => s
  | some e =>
    (((s.removeJobOf slot).loadingToPending slot e.serial).post (.unitLost slot)).afterRemoval slot

/-- A missed probe: missed sweeps rises by 1, saturating at 15, and presence follows it; on reaching 3 the entry becomes
ABSENT (R14, R15). An entry in SWITCHING or FALLBACK is left as it is. -/
def State.missProbe (s : State) (slot : Nat) : State :=
  match s.entry slot with
  | none => s
  | some e =>
    if e.activating then s
    else
      let n := min 15 (e.missed + 1)
      let t := s.setEntry slot (some { e with missed := n, presence := if n < 3 then .silent else .absent })
      if n = 3 then t.becomeAbsent slot else t

/-- The pin recorded for a serial (R28). -/
def pinFor (table : List PinRecord) (serial : Nat) : Option Pin :=
  (table.find? fun r => r.serial == serial).map PinRecord.pin

/-- Writes the record of a serial: replaced in place, or added at the tail; a full table first loses its oldest record
whose serial no occupied entry carries (R28). -/
def State.writePin (s : State) (table : List PinRecord) (serial : Nat) (pin : Pin) : List PinRecord :=
  if table.any fun r => r.serial == serial then
    table.map fun r => if r.serial == serial then { r with pin := pin } else r
  else
    (if table.length < Config.maxPins then table else table.eraseP fun r => !s.carries r.serial)
      ++ [{ serial := serial, pin := pin }]

/-- Removes the record of a serial (R28). -/
def dropPin (table : List PinRecord) (serial : Nat) : List PinRecord := table.filter fun r => r.serial != serial

end Sys2Proof.Machine
end

