-- ==== Sys2Proof/Machine/Activation.lean ====
section
/-!
DEFINITION. The Activation Unit (chapter 6): eligibility for SWAP (R106), the start of an activation (R108), the judging
of an identity reply (R112 to R118), the ends of an activation (R113, R117, R119) and REVERT (R120).
-/

namespace Sys2Proof.Machine

open Sys2Proof

/-- The boot timeout of an entry's profile as it stands (R110). -/
def State.bootTimeout (s : State) (e : Entry) : Nat := (s.profile e.profile).boot

/-- The entry is eligible for SWAP (R106). -/
def State.swapEligible (s : State) (e : Entry) : Bool :=
  e.state == .staged && e.presence != .absent && e.target.any (fun t => e.holdsInactive t.version)
    && (s.line e.line).state == .active

/-- The conditions checked before each attempt of a SWAP (R76, R107): the mode, the swap count and the eligibility. -/
def State.swapAllowed (s : State) (slot : Nat) : Bool :=
  match s.entry slot with
  | none => false
  | some e =>
    s.veh.mode == .quiet && decide (s.swapCount e.line < (s.line e.line).settings.swapLimit) && s.swapEligible e

/-- A valid TAKEN answering SWAP: the entry goes from STAGED to SWITCHING; a request that finds it in another state is
stale and dropped (R108). -/
def State.startActivation (s : State) (slot serial : Nat) : State :=
  match s.entry slot with
  | none => s
  | some e =>
    if e.state = .staged ∧ e.serial = serial then
      s.setEntry slot (some
        { e with
          state := .switching, prior := e.runningVersion, revert := .idle
          bootTimer := some { seconds := s.bootTimeout e, phase := .first }
          probeDue := some (s.now + Config.ticksPerSecond) })
    else s

/-- A history record joins the head of the list, which keeps at most 4 (R18). -/
def Entry.recordHistory (e : Entry) (time : Nat) (o : InstallOutcome) : Entry :=
  match e.target with
  | none => e
  | some t => { e with history := ({ version := t.version, time := time, outcome := o } :: e.history).take 4 }

/-- Queues a REVERT for an entry; its line's arbiter chooses again (R74, R120). -/
def State.queueRevert (s : State) (slot : Nat) (e : Entry) : State :=
  (s.setEntry slot (some { e with revert := .queued })).wake e.line

/-- What an ending does to the fail count (R113, R114, R116, R118). -/
inductive FailEffect where
  | clear | charge | keep
  deriving DecidableEq, Repr

/-- Applies an ending's effect on the fail count (R113, step 2; step 3 is in the charge). -/
def State.failEffect (s : State) (slot : Nat) : FailEffect → State
  | .clear => s.modEntry slot fun e => { e with failCount := 0 }
  | .charge => s.chargeSlot slot
  | .keep => s

/-- An entry whose activation has ended stands in IN_STEP, its activation fields gone (R113, step 4). -/
def Entry.activationEnded (e : Entry) : Entry :=
  { e with state := .inStep, bootTimer := none, probeDue := none, revert := .idle, owed := false }

/-- Ends an activation with the outcome INSTALLED or REVERTED (R113): history, fail count, HELD by the charge or IN_STEP,
the event, and one resolution. -/
def State.endActivation (s : State) (slot : Nat) (e : Entry) (o : InstallOutcome) (f : FailEffect) (ev : Event) :
    State :=
  let t := (s.setEntry slot (some (e.recordHistory s.time.depotTime o))).failEffect slot f
  if (t.entry slot).any fun x => x.state == .held then t.post ev
  else ((t.modEntry slot Entry.activationEnded).post ev).resolve slot

/-- The version an entry's activation is for: its target's. -/
def Entry.targetVersion (e : Entry) : Version := (e.target.map Target.version).getD ⟨0, 0, 0⟩

/-- The entry runs its target's version (R112). -/
def Entry.runsTarget (e : Entry) : Bool := e.target.any fun t => e.runningVersion == some t.version

/-- The outcome INSTALLED (R114, R118). -/
def State.endInstalled (s : State) (slot : Nat) (e : Entry) (f : FailEffect) : State :=
  s.endActivation slot e .installed f (.installed slot e.targetVersion)

/-- The outcome REVERTED (R116, R118). -/
def State.endReverted (s : State) (slot : Nat) (e : Entry) (f : FailEffect) : State :=
  s.endActivation slot e .reverted f (.reverted slot e.targetVersion e.runningVersion)

/-- The entry's boot timer has expired, and its expiry is still to be handled (R110): it has run down to 0, or an IDENT
that came with the expiry has restarted it. -/
def Entry.bootRunDown (e : Entry) : Bool := e.bootTimer.any fun b => b.seconds == 0 || b.expired

/-- A boot fault (R115): the REVERT is queued, the entry goes to FALLBACK with its timer restarted in phase FIRST, and
it is charged 1. An expiry that came with the IDENT is still handled, in FALLBACK (R110). -/
def State.bootFault (s : State) (slot : Nat) (e : Entry) : State :=
  (s.queueRevert slot
    { e with
      state := .fallback
      bootTimer := some { seconds := s.bootTimeout e, phase := .first, expired := e.bootRunDown } }).chargeSlot slot

/-- The phase of an entry's boot timer is SECOND. -/
def Entry.inSecond (e : Entry) : Bool := e.bootTimer.any fun b => b.phase == .second

/-- Judges a recorded IDENT for an entry in SWITCHING or FALLBACK (R112 to R118). -/
def State.judge (s : State) (slot : Nat) : State :=
  match s.entry slot with
  | none => s
  | some e =>
    match e.state with
    | .switching =>
      if e.runsTarget then
        if e.bootFault then s.bootFault slot e else s.endInstalled slot e .clear
      else s.endReverted slot e .charge
    | .fallback =>
      if e.runsTarget then
        if e.inSecond && !e.bootFault then s.endInstalled slot e .keep
        else if e.revert = .idle then s.queueRevert slot e
        else s
      else s.endReverted slot e .keep
    | _ => s

/-- The outcome LOST: the history record, then HELD (R117, R119). -/
def State.endLost (s : State) (slot : Nat) (e : Entry) : State :=
  (s.setEntry slot (some (e.recordHistory s.time.depotTime .lost))).becomeHeld slot true

/-- The FIRST-phase boot timer of a SWITCHING entry expires (R117): charged 1, then FALLBACK in phase SECOND, or LOST at
the third charge. -/
def State.firstExpiry (s : State) (slot : Nat) (e : Entry) : State :=
  if 3 ≤ e.failCount + 1 then s.endLost slot e
  else
    s.setEntry slot (some
      { e with
        state := .fallback, failCount := e.failCount + 1
        bootTimer := some { seconds := s.bootTimeout e, phase := .second } })

/-- A probe or a REVERT of an entry has ended with an outcome: the next probe is due 1 s ahead while the activation goes
on (R111). -/
def State.nextProbe (s : State) (slot : Nat) : State :=
  s.modEntry slot fun e =>
    if e.activating then { e with probeDue := some (s.now + Config.ticksPerSecond) } else e

/-- A REVERT exchange has ended (R120): taken, or failed. For a HELD entry its work is done either way. -/
def State.revertEnded (s : State) (slot : Nat) (taken : Bool) : State :=
  (s.modEntry slot fun e =>
      { e with revert := if taken ∧ e.state = .fallback then .taken else .idle }).nextProbe slot

end Sys2Proof.Machine
end

