-- ==== Sys2Proof/Machine/Roster.lean ====
section
/-!
DEFINITION. Learning units and handling an IDENT (sections 1.3 and 1.4): recording a unit (R5), a new unit's slot (R6),
eviction (R7), replacement at an address (R8), recording a reply (R9, R16), and what follows it (R10).
-/

namespace Sys2Proof.Machine

open Sys2Proof

/-- The entry a unit is first recorded as (R5, steps 1 to 6). -/
def State.freshEntry (s : State) (l : Line) (address : Nat) (i : Ident) : Entry :=
  let idx := lookupProfile s.profiles i.classCode
  let held := decide (i.serial ∈ s.heldSerials)
  { line := l, address := address, serial := i.serial, classCode := i.classCode, hwRev := i.hwRev,
    capacity := i.capacity, bank0 := i.bank0, bank1 := i.bank1, running := i.running, bootFault := i.bootFault,
    loading := i.loading, presence := .present, missed := 0, profile := idx, estimate := (s.profile idx).seed,
    target := none, note := .noNote, yardPin := pinFor s.yardPins i.serial,
    servicePin := pinFor s.servicePins i.serial, state := if held then .held else .inStep,
    failCount := if held then 3 else 0, prior := none, bootTimer := none, probeDue := none, revert := .idle,
    history := [], refused := none, owed := false }

/-- Records a unit in a slot (R5): the fields, then resolution, then UNIT_JOINED. -/
def State.learn (s : State) (slot : Nat) (l : Line) (address : Nat) (i : Ident) : State :=
  ((s.setEntry slot (some (s.freshEntry l address i))).resolve slot).post (.unitJoined slot)

/-- Evicts the entry of a slot (R7): its job is removed, an exchange that serves it is abandoned (a full-sweep or recovery
probe of its address too, log entry 46), and the slot becomes free. A freed tag goes to an entry that waits, before the slot
is written again (R58, step 5). UNIT_LOST is posted unless the entry was already ABSENT, or in every case when `always` says
so (R8). -/
def State.evict (s : State) (slot : Nat) (always : Bool) : State :=
  match s.entry slot with
  | none => s
  | some e =>
    let t := (((s.removeJobOf slot).abandonEntry slot e).setEntry slot none).createJobs
    if always || e.presence != .absent then t.post (.unitLost slot) else t

/-- The lowest-numbered free slot (R6). -/
def State.freeSlot (s : State) : Option Nat := (List.range Config.slots).find? fun i => (s.entry i).isNone

/-- The missed sweeps of a slot's entry when it is ABSENT. -/
def State.absentMissed (s : State) (slot : Nat) : Option Nat :=
  ((s.entry slot).filter fun e => e.presence == .absent).map Entry.missed

/-- The ABSENT entry with the most missed sweeps, the lowest slot among equals (R6). -/
def State.evictable (s : State) : Option Nat :=
  (List.range Config.slots).foldl (fun best i =>
    match s.absentMissed i with
    | none => best
    | some n =>
      match best with
      | none => some i
      | some b => if (s.absentMissed b).getD 0 < n then some i else some b) none

/-- Posts ROSTER_FULL unless the sweep in progress on the line has posted it already (R6). -/
def State.rosterFull (s : State) (l : Line) (address : Nat) : State :=
  if (s.line l).sweep.any fun w => w.fullPosted then s
  else
    (s.modLine l fun e => { e with sweep := e.sweep.map fun w => { w with fullPosted := true } }).post
      (.rosterFull l address)

/-- A unit answering a full-sweep probe at an address that no entry holds (R6). -/
def State.newUnit (s : State) (l : Line) (address : Nat) (i : Ident) : State :=
  match s.freeSlot with
  | some slot => s.learn slot l address i
  | none =>
    match s.evictable with
    | some slot => (s.evict slot false).learn slot l address i
    | none => s.rosterFull l address

/-- An entry after an IDENT of its own is recorded (R9); a changed capacity clears the refused image (R38). -/
def Entry.recorded (e : Entry) (i : Ident) : Entry :=
  { e with
    classCode := i.classCode, hwRev := i.hwRev, capacity := i.capacity, bank0 := i.bank0, bank1 := i.bank1
    running := i.running, bootFault := i.bootFault, loading := i.loading, presence := .present, missed := 0
    refused := if i.capacity = e.capacity then e.refused else none }

/-- A resolution input of the entry differs (R10). -/
def inputsDiffer (e f : Entry) : Bool :=
  e.classCode != f.classCode || e.hwRev != f.hwRev || e.capacity != f.capacity || e.running != f.running
    || e.bank0 != f.bank0 || e.bank1 != f.bank1

/-- The profile of a changed class code is looked up, and E takes its seed even if the index is the same (R10). -/
def State.reclass (s : State) (e : Entry) : Entry :=
  let i := lookupProfile s.profiles e.classCode
  { e with profile := i, estimate := (s.profile i).seed }

/-- An IDENT with the entry's own serial (R9, R10, R16), the steps in the order listed. -/
def State.recordIdent (s : State) (slot : Nat) (e : Entry) (i : Ident) : State :=
  let f := e.recorded i
  let f' := if i.classCode ≠ e.classCode then s.reclass f else f
  let t := s.setEntry slot (some f')
  let t := if e.presence = .absent then t.post (.unitJoined slot) else t
  let t :=
    if f.runningVersion ≠ e.runningVersion ∧ e.activating = false then
      t.post (.unitChanged slot f.runningVersion) else t
  let t := if inputsDiffer e f then t.resolve slot else t
  if e.activating then t.judge slot else t

/-- An IDENT that answers a probe at an address (R6, R8, R9). `full`: the probe belongs to a full sweep. -/
def State.handleIdent (s : State) (l : Line) (address : Nat) (full : Bool) (i : Ident) : State :=
  match s.slotAt l address with
  | none => if full then s.newUnit l address i else s
  | some slot =>
    match s.entry slot with
    | none => s
    | some e =>
      if e.serial = i.serial then s.recordIdent slot e i
      else (s.evict slot true).learn slot l address i

end Sys2Proof.Machine
end

