-- ==== Sys2Proof/Machine/Sweeps.lean ====
section
/-!
DEFINITION. Sweeps (section 1.5) and failure accounting (section 4.6): starting, advancing and ending sweeps (R12, R13,
R17), a line's part of a SWEEP NOW (R17), successes and failures (R77 to R79), the line fault and its recovery (R80,
R82), and enabling and disabling a line (R86).
-/

namespace Sys2Proof.Machine

open Sys2Proof

/-! ### Sweeps -/

/-- The lowest slot at or above `from_` that holds an entry of the line (R12). -/
def State.rosterNext (s : State) (l : Line) (from_ : Nat) : Option Nat :=
  (List.range Config.slots).find? fun i => decide (from_ ≤ i) && (s.entry i).any fun e => e.line == l

/-- A line's part in a long order becomes what `f` makes of it (R17). -/
def LongOrder.modCover (l : Line) (f : Cover → Cover) : LongOrder → LongOrder
  | .sweepNow a b =>
    match l with
    | .A => .sweepNow (f a) b
    | .B => .sweepNow a (f b)
  | .closeImage id => .closeImage id
  | .saveSettings => .saveSettings
  | .reloadSettings => .reloadSettings
  | .reset => .reset

/-- An outstanding part ends with an outcome (R17). -/
def Cover.end (o : SweepOutcome) : Cover → Cover
  | .outstanding => .ended o
  | .ended x => .ended x

/-- Ends the line's outstanding part of a port's SWEEP NOW. -/
def PortState.endCover (q : PortState) (l : Line) (o : SweepOutcome) : PortState :=
  { q with slot := q.slot.map (LongOrder.modCover l (Cover.end o)) }

/-- Ends the line's outstanding part of every port's SWEEP NOW (R17). -/
def State.endCovers (s : State) (l : Line) (o : SweepOutcome) : State :=
  ((s.modPort .Y fun q => q.endCover l o).modPort .V fun q => q.endCover l o).modPort .S fun q => q.endCover l o

/-- Posts SWEEP_DONE to a port whose SWEEP NOW has no outstanding part, and empties its slot (R17, R165). -/
def State.sweepDone (s : State) (p : Port) : State :=
  match (s.port p).slot with
  | some (.sweepNow (.ended a) (.ended b)) => (s.postTo p (.sweepDone a b)).emptySlot p
  | _ => s

/-- Completes every SWEEP NOW that is done. -/
def State.sweepsDone (s : State) : State := ((s.sweepDone .Y).sweepDone .V).sweepDone .S

/-- Starts a roster sweep: its timer restarts; a sweep that finds no entry ends at once (R12). -/
def State.startRoster (s : State) (l : Line) : State :=
  let first := s.rosterNext l 0
  s.modLine l fun e =>
    { e with
      rosterDue := false
      sweepTimer := some (s.now + sweepTicks e.settings.interval)
      sweep := first.map fun c => { kind := .roster, cursor := c, lastProbe := s.now, fullPosted := false }
      wake := true }

/-- Starts a full sweep at address 1: a roster sweep in progress ends, and the timer restarts (R12, R13). -/
def State.startFull (s : State) (l : Line) : State :=
  s.modLine l fun e =>
    { e with
      fullDue := false
      sweepTimer := some (s.now + sweepTicks e.settings.interval)
      sweep := some { kind := .full, cursor := 1, lastProbe := s.now, fullPosted := false }
      wake := true }

/-- A sweep has reached its end: a full sweep completes its line's part of each SWEEP NOW and of the start-up phase;
a roster sweep that is due starts (R12, R13, R17, R177). -/
def State.finishSweep (s : State) (l : Line) (k : SweepKind) : State :=
  let t := s.modLine l fun e =>
    { e with sweep := none, startSweep := if k = .full then false else e.startSweep }
  let t := if k = .full then t.endCovers l .complete else t
  if (t.line l).rosterDue then t.startRoster l else t

/-- A sweep in progress ends because its line becomes FAULTED or DISABLED: no sweep is due any more, and outstanding
parts are CUT (R12, R17). -/
def State.cutSweep (s : State) (l : Line) : State :=
  (s.modLine l fun e =>
    { e with sweep := none, rosterDue := false, fullDue := false, startSweep := false, sweepTimer := none }).endCovers l
      .cut

/-- An exchange was the probe at a sweep's cursor. -/
def Sweep.probedBy (w : Sweep) (x : Exchange) : Bool :=
  match w.kind with
  | .full => x.purpose == .fullProbe && x.address == w.cursor
  | .roster => x.purpose == .rosterProbe w.cursor

/-- After a sweep probe has ended with an outcome the cursor moves on, or the sweep ends (R12, R13). -/
def State.afterProbe (s : State) (l : Line) (x : Exchange) : State :=
  match (s.line l).sweep with
  | none => s
  | some w =>
    if w.probedBy x then
      match (match w.kind with
        | .full => if w.cursor < Config.lastAddress then some (w.cursor + 1) else none
        | .roster => s.rosterNext l (w.cursor + 1)) with
      | some c => s.modLine l fun e => { e with sweep := some { w with cursor := c, lastProbe := s.now } }
      | none => s.finishSweep l w.kind
    else s

/-- A roster sweep whose cursor's entry has left the line moves to the next, or ends (R12). -/
def State.tidySweep (s : State) (l : Line) : State :=
  match (s.line l).sweep with
  | none => s
  | some w =>
    match w.kind with
    | .full => s
    | .roster =>
      match s.rosterNext l w.cursor with
      | some c =>
        if c = w.cursor then s else s.modLine l fun e => { e with sweep := some { w with cursor := c } }
      | none => s.finishSweep l .roster

/-! ### Failure accounting -/

/-- Applies pending charges, oldest first (R79). -/
def State.applyCharges (s : State) (cs : List Charge) : State := cs.foldl State.charge s

/-- A success on an ACTIVE line applies every pending charge; the list is then empty and the run 0 (R79). -/
def State.lineSuccess (s : State) (l : Line) : State :=
  match (s.line l).state with
  | .active =>
    (s.modLine l fun e => { e with run := 0, charges := [] }).applyCharges (s.line l).charges
  | _ => s

/-- A line enters FAULTED (R80). -/
def State.faultLine (s : State) (l : Line) : State :=
  let t := s.modLine l fun e =>
    { e with
      state := .faulted, run := 4, charges := [], recoveryDue := false, wake := true
      recoveryTimer := some (s.now + sweepTicks e.settings.interval) }
  ((t.parkLine l).cutSweep l).post (.lineFault l)

/-- A failure on an ACTIVE line: the run rises and a charge joins the list, or the fourth in a row makes the line
FAULTED (R78). -/
def State.lineFailure (s : State) (l : Line) (c : Option Charge) : State :=
  match (s.line l).state with
  | .active =>
    if (s.line l).run < 3 then
      s.modLine l fun e => { e with run := e.run + 1, charges := e.charges ++ c.toList }
    else s.faultLine l
  | _ => s

/-- A FAULTED line returns to ACTIVE: the run is 0, the recovery timer stops, LINE_RECOVERED is posted (R82, R88). -/
def State.recoverLine (s : State) (l : Line) : State :=
  (s.modLine l fun e =>
    { e with state := .active, run := 0, charges := [], recoveryTimer := none, recoveryDue := false, wake := true }).post
    (.lineRecovered l)

/-! ### Enabling and disabling -/

/-- The tags of a line's jobs, open, parked or never opened, in ascending order: the order in which a disabled line's jobs
are removed is the model's choice (log entry 44). -/
def State.lineTags (s : State) (l : Line) : List Nat :=
  (List.range Config.tags).filter fun t => (s.job t).any fun j => s.jobLine j == l

/-- Removes a job without charge and without JOB_FAILED, its LOADING entry going to PENDING (R62). An entry whose target is
not STORED is then resolved (R45), although R62 keeps the targets of a disabled line (the model's choice, log entry 10). -/
def State.withdrawJob (s : State) (tag : Nat) : State :=
  match s.job tag with
  | none => s
  | some j => ((s.removeJob tag).loadingToPending j.slot j.serial).afterRemoval j.slot

/-- A line becomes DISABLED (R86): its jobs are removed by ascending tag (the model's choice, log entry 44), each removal
giving its tag to a waiting unit before the next (R58). -/
def State.disableLine (s : State) (l : Line) : State :=
  let t := (s.abandon l).modLine l fun e =>
    { e with
      state := .disabled, buffer := none, run := 0, charges := [], recoveryTimer := none, recoveryDue := false
      wake := true }
  ((t.lineTags l).foldl State.withdrawJob t).cutSweep l

/-- A DISABLED line becomes ACTIVE: the run is 0, its entries that wait are given jobs (R44, R62), and a full sweep
starts (R86). Before the start-up sweeps the sweep
is the start-up's own (R84). -/
def State.enableLine (s : State) (l : Line) : State :=
  let t := (s.modLine l fun e => { e with state := .active, run := 0, wake := true }).createJobs
  if s.linesRun then t.startFull l else t

/-! ### Line settings -/

/-- A line takes new settings, and they take effect (R85): a lowered open limit parks jobs at once (R43), a changed
enable flag disables or enables the line (R86), and its arbiter chooses again (R74). -/
def State.applyLine (s : State) (l : Line) (n : LineSettings) : State :=
  let old := (s.line l).settings
  let t := s.modLine l fun e => { e with settings := n, wake := e.wake || n != old }
  let t := if n.openLimit < old.openLimit then t.parkToLimit l else t
  match n.enable, (t.line l).state with
  | false, .active => t.disableLine l
  | false, .faulted => t.disableLine l
  | true, .disabled => t.enableLine l
  | _, _ => t

/-- The guard takes a new value: the window state is judged again (R85, R98). -/
def State.applyGuard (s : State) (g : Nat) : State :=
  let t := { s with guardTime := g }
  (if g ≠ s.guardTime then t.wakeBoth else t).judgeWindow

end Sys2Proof.Machine
end

