-- ==== Sys2Proof/Machine/Outcomes.lean ====
section
/-!
DEFINITION. The outcomes of exchanges: a failed exchange by its purpose (R60, R77, R109, R111, R120), a retry (R68), a
unit fault (R61), and the valid replies IDENT (R9, R82), FILL (R48), TAKEN (R49, R51, R108, R120) and STATE (R50 to R53,
R73, R90). A unit fault and the TAKEN of SWAP and REVERT are counted before they take effect (R58, R108, R120); any other
reply's own effect is taken before the charges its success applies (log entry 7).
-/

namespace Sys2Proof.Machine

open Sys2Proof

/-- The cause of a failed attempt (R68). -/
inductive FailCause where
  | noReply | bad | busyTimeout
  deriving DecidableEq, Repr

/-- The cause as JOB_FAILED carries it (R60). -/
def FailCause.jobCause : FailCause → JobFailCause
  | .noReply => .noReply
  | .bad => .bad
  | .busyTimeout => .busyTimeout

/-- The retry limit of a job's exchanges: 0 when its no-retry flag is set, the line's otherwise (R68). -/
def State.jobLimit (s : State) (l : Line) (j : Job) : Nat := if j.noRetry then 0 else (s.line l).settings.retry

/-- Begins an exchange of a job (R68): its retries used start from 0. -/
def State.beginJobExchange (s : State) (l : Line) (tag : Nat) (j : Job) (e : Entry) (purpose : Purpose) : State :=
  (s.modJob tag fun j => { j with retriesUsed := 0 }).beginExchange l purpose e.address e.serial (s.jobLimit l j)

/-- The number of blocks of a job's next burst: the profile's burst size, or what is left (R49, R70). -/
def State.burstSize (s : State) (e : Entry) (img : Image) (next : Nat) : Nat :=
  min (s.profile e.profile).burst (img.length - next)

/-! ### Failures -/

/-- A job's exchange has failed (R60): the job is removed, its entry goes to PENDING, JOB_FAILED is posted, and the
failure is accounted with a pending charge (R77): in the order of R60's list and R80, where R58 has the removal follow the
counting (the model's choice, log entry 34). -/
def State.jobFailed (s : State) (l : Line) (tag : Nat) (c : FailCause) : State :=
  match s.job tag with
  | none => s
  | some j =>
    let t := (s.removeJob tag).loadingToPending j.slot j.serial
    let t := t.post (.jobFailed j.slot tag j.imageId c.jobCause j.next)
    (t.afterRemoval j.slot).lineFailure l (some { slot := j.slot, serial := j.serial })

/-- An exchange ends FAILED (R68, R77). -/
def State.failExchange (s : State) (l : Line) (x : Exchange) (c : FailCause) : State :=
  let t := s.endExchange l
  match x.purpose with
  | .load tag _ => t.jobFailed l tag c
  | .burst tag _ _ => t.jobFailed l tag c
  | .poll tag => t.jobFailed l tag c
  | .check tag => t.jobFailed l tag c
  | .swap slot => t.lineFailure l (some { slot := slot, serial := x.serial })
  | .revert slot => (t.revertEnded slot false).lineFailure l none
  | .activationProbe slot => t.nextProbe slot
  | .recoveryProbe => t
  | .rosterProbe slot => ((t.missProbe slot).afterProbe l x).lineFailure l none
  | .fullProbe =>
    match t.slotAt l x.address with
    | none => t.afterProbe l x
    | some slot => ((t.missProbe slot).afterProbe l x).lineFailure l none

/-- The exchange may not make another attempt: a SWAP whose conditions no longer hold (R76, R107). -/
def State.swapBarred (s : State) (x : Exchange) : Bool :=
  match x.purpose with
  | .swap slot => !s.swapAllowed slot
  | _ => false

/-- An attempt has ended NO_REPLY or BAD (R68): a retry while some are left, else the exchange fails. A SWAP that may
not be sent again is abandoned instead. The retry is counted here, when it is decided, also when its frame must still wait
for the idle gap (the model's choice, log entry 35). -/
def State.attemptFailed (s : State) (l : Line) (c : FailCause) : State :=
  match (s.line l).exchange with
  | none => s
  | some x =>
    if x.retries < x.limit then
      if s.swapBarred x then s.abandon l else (s.countRetry l x).startAttempt l
    else s.failExchange l x c

/-! ### Unit faults -/

/-- Removes a job that an outcome ends, unless a charge that was counted before has removed it already (R58, R61). -/
def State.dropJob (s : State) (tag : Nat) (j : Job) : State :=
  if (s.job tag).any fun k => k.slot == j.slot then s.removeJob tag else s

/-- A unit fault (R61). The exchange that carried it is counted as a success first (R58, R79). Then the job is removed and
its entry goes to PENDING, JOB_FAILED is posted, the entry takes what `mark` makes of it (a refused image, R38; a lost
loading mark, R53), it is charged 1, and it is resolved where R38 or R45 asks. -/
def State.unitFault (s : State) (l : Line) (tag : Nat) (j : Job) (k : FaultKind) (mark : Entry → Entry) (resolve : Bool) :
    State :=
  let t := ((s.lineSuccess l).dropJob tag j).loadingToPending j.slot j.serial
  let t := t.post (.jobFailed j.slot tag j.imageId (.unitFault k) j.next)
  let t := (t.modEntry j.slot mark).charge { slot := j.slot, serial := j.serial }
  if resolve then t.resolve j.slot else t.afterRemoval j.slot

/-- A unit fault that marks nothing. -/
def State.plainFault (s : State) (l : Line) (tag : Nat) (j : Job) (k : FaultKind) : State :=
  s.unitFault l tag j k id false

/-! ### FILL -/

/-- Sends LOAD FRESH on the same job at once (R48, cases 2 and 4), or parks a job that is to park (R56). -/
def State.resendFresh (s : State) (l : Line) (tag : Nat) (j : Job) (e : Entry) : State :=
  if j.parking then s.parkJob tag else s.beginJobExchange l tag j e (.load tag .fresh)

/-- An accepted FILL (R48, case 6): the next block takes the fill count, and the job waits, is READY, or parks. -/
def State.acceptFill (s : State) (l : Line) (tag : Nat) (j : Job) (e : Entry) (mode : LoadMode) (f : Fill) : State :=
  let t := s.modJob tag fun j => { j with next := f.fill }
  if j.parking then t.parkJob tag
  else if f.busy then
    t.startWait tag e (match mode with
      | .fresh => .erase
      | .resume => .settle)
  else t.makeReady l tag

/-- The FILL that answers a job's LOAD, the cases of R48 in order; the exchange is a success in each (R77). -/
def State.applyFill (s : State) (l : Line) (tag : Nat) (j : Job) (e : Entry) (img : Image) (mode : LoadMode) (f : Fill) :
    State :=
  match f.refusal, mode with
  | .capacity, _ => s.unitFault l tag j .capacity (fun e => { e with refused := some j.imageId }) true
  | .refused, .resume => (s.resendFresh l tag j e).lineSuccess l
  | .refused, .fresh => s.plainFault l tag j .refused
  | .accepted, .resume =>
    if img.length < f.fill then (s.resendFresh l tag j e).lineSuccess l
    else (s.acceptFill l tag j e mode f).lineSuccess l
  | .accepted, .fresh =>
    if f.fill ≠ 0 then s.plainFault l tag j .sequence else (s.acceptFill l tag j e mode f).lineSuccess l

/-! ### TAKEN -/

/-- An accepted burst (R49): blocks delivered rises, the next block moves on, and the job waits, is READY, or parks. -/
def State.acceptBurst (s : State) (l : Line) (tag : Nat) (j : Job) (e : Entry) (count : Nat) (f : Taken) : State :=
  let t := (s.modStats l fun st => { st with blocksDelivered := bump st.blocksDelivered count }).modJob tag fun j =>
    { j with next := f.fill, retriesUsed := 0 }
  if j.parking then t.parkJob tag
  else if f.busy then t.startWait tag e .burst
  else t.makeReady l tag

/-- A TAKEN short of its burst (R49, R68, R70): one retry is spent and the burst that follows from the unit's fill
count is read anew; with none left the exchange fails; a job that is to park parks (R56). -/
def State.shortTaken (s : State) (l : Line) (x : Exchange) (tag : Nat) (j : Job) (e : Entry) (img : Image) (fill : Nat) :
    State :=
  let t := s.modJob tag fun j => { j with next := fill }
  if x.retries < x.limit then
    if j.parking then ((t.endExchange l).parkJob tag).lineSuccess l
    else
      let k := t.burstSize e img fill
      let y : Exchange := { x with purpose := .burst tag fill k, phase := .reading, framesOut := false }
      (t.countRetry l y).requestRead l { tag := tag, imageId := j.imageId, first := fill, count := k }
  else t.failExchange l x .bad

/-- The TAKEN that ends a burst (R49). -/
def State.applyBurstTaken (s : State) (l : Line) (x : Exchange) (tag first count : Nat) (j : Job) (e : Entry)
    (img : Image) (f : Taken) : State :=
  if f.fill = first + count then ((s.endExchange l).acceptBurst l tag j e count f).lineSuccess l
  else if f.fill < first + count then s.shortTaken l x tag j e img f.fill
  else (s.endExchange l).plainFault l tag j .sequence

/-- The TAKEN that answers CHECK (R51). -/
def State.applyCheckTaken (s : State) (l : Line) (tag : Nat) (j : Job) (e : Entry) (img : Image) (f : Taken) : State :=
  if f.fill ≠ img.length then s.plainFault l tag j .sequence
  else if j.parking then (s.parkJob tag).lineSuccess l
  else (s.startVerify tag e f.busy).lineSuccess l

/-! ### STATE -/

/-- The kind of the fault a STATE carries, if it carries one (R61). -/
def reportFault : UnitFaultField → Option FaultKind
  | .noFault => none
  | .writeFault => some .writeFault
  | .sequence => some .sequence
  | .capacity => some .capacity

/-- A busy STATE ends the wait (R73): busy elapsed is above its limit, or the limit is 0, which the first busy STATE ends
(R72). -/
def Job.outlasted (j : Job) : Bool := decide (j.busyLimit < j.busyElapsed) || j.busyLimit == 0

/-- A busy STATE within the limit sets the next poll due; a job that is to park parks (R50, R56, R73). -/
def State.keepWait (s : State) (tag : Nat) (j : Job) (gapTicks : Nat) (next : Nat) : State :=
  let t := s.modJob tag fun j => { j with next := next, pollDue := some (s.now + gapTicks) }
  if j.parking then t.parkJob tag else t

/-- A program-time sample changes the entry's estimate (R90, R91). -/
def State.sample (s : State) (slot sample : Nat) : State :=
  s.modEntry slot fun e => { e with estimate := newEstimate e.estimate sample }

/-- A ready STATE that ends a wait (R50, case 4). -/
def State.endWait (s : State) (l : Line) (tag : Nat) (j : Job) (w : WaitKind) (u : UnitReport) : State :=
  let t := if w = .burst then s.sample j.slot u.busyTime else s
  let t := t.modJob tag fun j => { j with next := u.fill }
  if j.parking then t.parkJob tag else t.makeReady l tag

/-- The CHECK has passed (R52): the inactive bank record, STAGED, and the job's removal. -/
def State.completeJob (s : State) (tag : Nat) (j : Job) (e : Entry) (img : Image) : State :=
  let b : BankRecord := { version := some img.version, valid := true }
  let e' : Entry :=
    match e.running with
    | .b0 => { e with bank1 := b }
    | .b1 => { e with bank0 := b }
  let t := s.setEntry j.slot (some (if e.state = .loading then { e' with state := .staged } else e'))
  let t := if e.state = .loading then (t.post (.staged j.slot)).wake e.line else t
  (t.removeJob tag).createJobs

/-- A STATE answering a poll to a RELEASED job with a wait kind, the cases of R50 in order. The exchange has ended but
for a busy timeout. -/
def State.applyReleased (s : State) (l : Line) (x : Exchange) (tag : Nat) (j : Job) (e : Entry) (img : Image)
    (w : WaitKind) (u : UnitReport) : State :=
  let t := s.endExchange l
  match reportFault u.fault with
  | some k => t.plainFault l tag j k
  | none =>
    if j.next < u.fill ∨ img.length < u.fill then t.plainFault l tag j .sequence
    else if u.busy then
      if j.outlasted then (s.modJob tag fun j => { j with next := u.fill }).failExchange l x .busyTimeout
      else (t.keepWait tag j (nextPoll w e.estimate) u.fill).lineSuccess l
    else (t.endWait l tag j w u).lineSuccess l

/-- A STATE answering a poll to a VERIFYING job (R51 to R53, R73). -/
def State.applyVerifying (s : State) (l : Line) (x : Exchange) (tag : Nat) (j : Job) (e : Entry) (img : Image)
    (u : UnitReport) : State :=
  let t := s.endExchange l
  match reportFault u.fault with
  | some k => t.plainFault l tag j k
  | none =>
    if u.busy then
      if j.outlasted then s.failExchange l x .busyTimeout
      else (t.keepWait tag j Config.slowPollTicks j.next).lineSuccess l
    else
      match u.check with
      | .pass => (t.completeJob tag j e img).lineSuccess l
      | .fail => t.unitFault l tag j .checkFail (fun e => { e with loading := none }) false
      | .noResult => t.plainFault l tag j .sequence

/-! ### Valid replies -/

/-- A valid IDENT (R9, R82, R111): a recovery probe's brings its line back first, then the roster handles it, then the
sweep's cursor or the entry's next probe moves on. -/
def State.applyIdent (s : State) (l : Line) (x : Exchange) (i : Ident) : State :=
  let t := s.endExchange l
  match x.purpose with
  | .recoveryProbe => ((t.recoverLine l).startFull l).handleIdent l x.address false i
  | .fullProbe => ((t.handleIdent l x.address true i).afterProbe l x).lineSuccess l
  | .rosterProbe _ => ((t.handleIdent l x.address false i).afterProbe l x).lineSuccess l
  | .activationProbe slot => ((t.handleIdent l x.address false i).nextProbe slot).lineSuccess l
  | _ => t

/-- What a job's exchange needs of the state: the job, its entry and its image's record. -/
def State.jobParts (s : State) (tag : Nat) : Option (Job × Entry × Image) :=
  match s.job tag with
  | none => none
  | some j =>
    match s.entry j.slot, s.image j.imageId with
    | some e, some img => some (j, e, img)
    | _, _ => none

/-- A valid reply is handed to the block that owns the exchange (R67). -/
def State.applyReply (s : State) (l : Line) (x : Exchange) (r : CabinReply) : State :=
  match x.purpose, r with
  | .load tag mode, .fill f =>
    match s.jobParts tag with
    | none => s.endExchange l
    | some (j, e, img) => (s.endExchange l).applyFill l tag j e img mode f
  | .burst tag first count, .taken f =>
    match s.jobParts tag with
    | none => s.endExchange l
    | some (j, e, img) => s.applyBurstTaken l x tag first count j e img f
  | .check tag, .taken f =>
    match s.jobParts tag with
    | none => s.endExchange l
    | some (j, e, img) => (s.endExchange l).applyCheckTaken l tag j e img f
  | .swap slot, .taken _ => ((s.endExchange l).lineSuccess l).startActivation slot x.serial
  | .revert slot, .taken _ => ((s.endExchange l).lineSuccess l).revertEnded slot true
  | .poll tag, .state u =>
    match s.jobParts tag with
    | none => s.endExchange l
    | some (j, e, img) =>
      match j.state, j.wait with
      | .verifying, _ => s.applyVerifying l x tag j e img u
      | .released, some w => s.applyReleased l x tag j e img w u
      | _, _ => s.endExchange l
  | _, .ident i => s.applyIdent l x i
  | _, _ => s.endExchange l

/-- A valid reply raises good replies (R67, R83). -/
def State.countGood (s : State) (l : Line) : State := s.modStats l fun st => { st with goodReplies := bump st.goodReplies 1 }

/-- Characters have just been received on a line: it is not idle (R64). -/
def State.unquiet (s : State) (l : Line) : State := s.modLine l fun e => { e with quiet := false }

/-- A reply judged BAD (R67): its counter rises and the attempt has failed. -/
def State.badReply (s : State) (l : Line) (c : BadCounter) : State :=
  (s.modStats l fun st => st.bad c).attemptFailed l .bad

/-- The exchange of a line awaits a reply. -/
def State.awaits (s : State) (l : Line) : Option Exchange :=
  ((s.line l).exchange).filter fun x => x.phase == .awaiting

/-- A reply with decoded fields is received on a line (R64, R67): dropped when none is awaited, BAD when its kind or
contents do not fit, and handed to its owner otherwise. -/
def State.receive (s : State) (l : Line) (r : CabinReply) : State :=
  match s.awaits l with
  | none => s.unquiet l
  | some x =>
    if replyFits x.purpose r then ((s.unquiet l).countGood l).applyReply l x r
    else (s.unquiet l).badReply l .none

/-- A run of characters is received on a line (R64, R67): dropped when no reply is awaited, and judged otherwise. -/
def State.receiveRaw (s : State) (l : Line) (rx : Reception) : State :=
  match s.awaits l with
  | none => s.unquiet l
  | some x =>
    match judgeReception x rx with
    | .error c => (s.unquiet l).badReply l c
    | .ok r => ((s.unquiet l).countGood l).applyReply l x r

/-- The reply timeout has passed with no start bit (R66): NO_REPLY. The line has been idle for the whole timeout. -/
def State.timeOut (s : State) (l : Line) : State :=
  match s.awaits l with
  | none => s
  | some x =>
    ((s.modStats l fun st => { st with noReplies := bump st.noReplies 1 }).modLine l fun e =>
        { e with quiet := e.quiet || timeoutCoversGap x.timeout x.rate }).attemptFailed l .noReply

end Sys2Proof.Machine
end

