-- ==== Sys2Proof/Machine/Arbiter.lean ====
section
/-!
DEFINITION. The line arbiter (section 4.5): the seven kinds of action in order (R75), what the vehicle mode permits, the
opening scan with its admission tests (R46, R101, R102), the burst (R70), and the recovery probe (R82).
-/

namespace Sys2Proof.Machine

open Sys2Proof

/-! ### The candidates of each kind -/

/-- A REVERT is queued for an entry that may be sent one: in FALLBACK, or HELD with it kept (R120). -/
def Entry.revertWaits (e : Entry) : Bool :=
  e.revert == .queued && (e.state == .fallback || e.state == .held)

/-- An activation probe of the entry has fallen due (R111). -/
def Entry.probeWaits (e : Entry) (now : Nat) : Bool := e.activating && e.probeDue.any fun d => decide (d ≤ now)

/-- Kind 1: the lowest slot of the line with a queued REVERT or a due activation probe. -/
def State.activationSlot (s : State) (l : Line) : Option Nat :=
  (List.range Config.slots).find? fun i =>
    (s.entry i).any fun e => e.line == l && (e.revertWaits || e.probeWaits s.now)

/-- Kind 2: a sweep is in progress and more than 250 ms have passed since its last probe. -/
def State.sweepOverdue (s : State) (l : Line) : Bool :=
  (s.line l).sweep.any fun w => decide (w.lastProbe + Config.sweepOverdueTicks < s.now)

/-- When a job's poll is due, if it waits and its poll has fallen due. -/
def State.pollDueAt (s : State) (tag : Nat) : Option Nat :=
  match s.job tag with
  | none => none
  | some j =>
    if j.state = .released ∨ j.state = .verifying then j.pollDue.filter fun d => decide (d ≤ s.now) else none

/-- Kind 3: the tag of the line with the earliest due poll, the lowest tag among equals. -/
def State.duePoll (s : State) (l : Line) : Option Nat :=
  ((List.range Config.tags).filter fun t => t ∈ (s.line l).openSet).foldl (fun best t =>
    match s.pollDueAt t with
    | none => best
    | some d =>
      match best with
      | none => some t
      | some b => if d < (s.pollDueAt b).getD 0 then some t else some b) none

/-- The priority class of the target of a slot's entry when it is on the line and eligible for SWAP. -/
def State.swapPrio (s : State) (l : Line) (slot : Nat) : Option Nat :=
  match s.entry slot with
  | none => none
  | some e => if e.line = l ∧ s.swapEligible e then e.target.map Target.prio else none

/-- Kind 4: the eligible entry of the line whose target has the highest class, the lowest slot among equals. -/
def State.swapSlot (s : State) (l : Line) : Option Nat :=
  if s.swapCount l < (s.line l).settings.swapLimit then
    (List.range Config.slots).foldl (fun best i =>
      match s.swapPrio l i with
      | none => best
      | some p =>
        match best with
        | none => some i
        | some b => if p < (s.swapPrio l b).getD 0 then some i else some b) none
  else none

/-- The priority class of a job. -/
def State.jobPrio (s : State) (tag : Nat) : Nat := ((s.job tag).map Job.prio).getD 0

/-- Kind 5: the READY job of the line with the highest class, the earliest READY within it. -/
def State.readyTag (s : State) (l : Line) : Option Nat :=
  (s.line l).ready.foldl (fun best t =>
    match best with
    | none => some t
    | some b => if s.jobPrio t < s.jobPrio b then some t else some b) none

/-- The tags of a line's class queues, in class order and each from head to tail (R75). -/
def LineEngine.queued (e : LineEngine) : List Nat := e.queue0 ++ e.queue1 ++ e.queue2 ++ e.queue3

/-! ### The actions -/

/-- Serves an entry's REVERT before its probe (R75, R111, R120). -/
def State.serveActivation (s : State) (l : Line) (slot : Nat) : State :=
  match s.entry slot with
  | none => s
  | some e =>
    s.beginExchange l (if e.revertWaits then .revert slot else .activationProbe slot) e.address e.serial
      (s.line l).settings.retry

/-- Makes the probe at the sweep's cursor (R12, R13). -/
def State.serveSweep (s : State) (l : Line) : State :=
  match (s.line l).sweep with
  | none => s
  | some w =>
    match w.kind with
    | .full => s.beginExchange l .fullProbe w.cursor 0 (s.line l).settings.retry
    | .roster =>
      match s.entry w.cursor with
      | none => s
      | some e => s.beginExchange l (.rosterProbe w.cursor) e.address e.serial (s.line l).settings.retry

/-- Polls a job (R50, R51). -/
def State.servePoll (s : State) (l : Line) (tag : Nat) : State :=
  match s.jobParts tag with
  | none => s
  | some (j, e, _) => s.beginJobExchange l tag j e (.poll tag)

/-- Sends SWAP to an entry (R107). -/
def State.serveSwap (s : State) (l : Line) (slot : Nat) : State :=
  match s.entry slot with
  | none => s
  | some e => s.beginExchange l (.swap slot) e.address e.serial (s.line l).settings.retry

/-- Serves a READY job by its next burst, or by CHECK when its unit holds every block (R49, R51, R70). -/
def State.serveReady (s : State) (l : Line) (tag : Nat) : State :=
  match s.jobParts tag with
  | none => s
  | some (j, e, img) =>
    let t := (s.modJob tag fun j => { j with state := .sending }).modLine l fun x =>
      { x with ready := x.ready.filter (· != tag) }
    if j.next < img.length then
      let k := s.burstSize e img j.next
      (t.beginJobExchange l tag j e (.burst tag j.next k)).requestRead l
        { tag := tag, imageId := j.imageId, first := j.next, count := k }
    else t.beginJobExchange l tag j e (.check tag)

/-- Opens a job (R46): it leaves its queue for the newest end of the open set and takes STARTING, a first opening moves
its entry from PENDING to LOADING, and its LOAD is sent. -/
def State.openJob (s : State) (l : Line) (tag : Nat) (j : Job) (e : Entry) (img : Image) : State :=
  let t := (s.dropTag tag).modLine l fun x => { x with openSet := x.openSet ++ [tag] }
  let t := t.modJob tag fun j =>
    { j with state := .starting, deferred := false, everOpened := true, retriesUsed := 0, busyElapsed := 0 }
  let t :=
    if j.everOpened then t
    else t.modEntry j.slot fun x =>
      if x.state = .pending ∧ x.serial = j.serial then { x with state := .loading } else x
  t.beginJobExchange l tag j e (.load tag (loadMode j e img))

/-- The opening scan (R75, kind 6): each job reached is offered for admission; one that fails takes its deferred flag,
the first admitted is opened and the scan ends. Answers whether a job was opened. -/
def State.openScan (s : State) (l : Line) : List Nat → State × Bool
  | [] => (s, false)
  | tag :: rest =>
    match s.jobParts tag with
    | none => s.openScan l rest
    | some (j, e, img) =>
      if s.admits j e img then (s.openJob l tag j e img, true)
      else (s.modJob tag fun j => { j with deferred := true }).openScan l rest

/-- Kinds 6 and 7: an opening when the open set is below its limit, and otherwise a sweep probe. -/
def State.openOrSweep (s : State) (l : Line) (mayOpen : Bool) : State :=
  if mayOpen && decide ((s.line l).openSet.length < (s.line l).settings.openLimit) then
    let r := s.openScan l (s.line l).queued
    if r.2 then r.1 else r.1.serveSweep l
  else s.serveSweep l

/-- Kinds 4 to 7 in YARD and QUIET; SWAP in QUIET alone (R75). -/
def State.chooseTransfer (s : State) (l : Line) : State :=
  match (if s.veh.mode = .quiet then s.swapSlot l else none) with
  | some slot => s.serveSwap l slot
  | none =>
    match s.readyTag l with
    | some tag => s.serveReady l tag
    | none => s.openOrSweep l true

/-- The choice on an ACTIVE line (R75), in a mode other than HALTED. -/
def State.chooseActive (s : State) (l : Line) : State :=
  match s.activationSlot l with
  | some slot => s.serveActivation l slot
  | none =>
    if s.sweepOverdue l then s.serveSweep l
    else
      if s.veh.mode = .inService then s.serveSweep l
      else
        match s.duePoll l with
        | some tag => s.servePoll l tag
        | none => s.chooseTransfer l

/-- The lowest address among the line's PRESENT and SILENT entries, or 1 (R82). -/
def State.recoveryAddress (s : State) (l : Line) : Nat :=
  (((List.range (Config.lastAddress + 1)).filter fun a =>
    s.roster.any fun r => r.any fun e => e.line == l && e.address == a && e.presence != .absent).head?).getD 1

/-- The choice on a FAULTED line: a due recovery probe (R75, R82). -/
def State.chooseFaulted (s : State) (l : Line) : State :=
  if (s.line l).recoveryDue then
    (s.modLine l fun e => { e with recoveryDue := false }).beginExchange l .recoveryProbe (s.recoveryAddress l) 0
      (s.line l).settings.retry
  else s

/-- The arbiter's choice when it is asked for and the line is free (R74, R75). -/
def State.arbitrate (s : State) (l : Line) : State :=
  if (s.line l).wake then
    let t := s.modLine l fun e => { e with wake := false }
    if (s.line l).exchange.isSome || s.halted || !s.linesRun then t
    else
      match (s.line l).state with
      | .active => t.chooseActive l
      | .faulted => t.chooseFaulted l
      | .disabled => t
  else s

end Sys2Proof.Machine
end

