-- ==== Sys2Proof/Machine/Operands.lean ====
section
/-!
DEFINITION. The operands of orders and what the manual stores for them: the names that numbers on the wire stand for
(R181, Tables 4.6 and 9.1), and the clamping of profiles and line settings (R22, R85).
-/

namespace Sys2Proof.Machine

open Sys2Proof

/-- A flag byte of an order: 0 or 1 is within its encoding (R181). -/
def flagOk (n : Nat) : Bool := decide (n ≤ 1)

/-- A flag byte that is within its encoding, as a flag (R181). -/
def flagSet (n : Nat) : Bool := n != 0

/-- The line an operand names: A or B by its index (R181); none otherwise. -/
def lineNamed : Nat → Option Line
  | 0 => some .A
  | 1 => some .B
  | _ => none

/-- The mode an operand names, by its index in R152's list (R181); none otherwise. -/
def modeNamed : Nat → Option Mode
  | 0 => some .inService
  | 1 => some .yard
  | 2 => some .quiet
  | 3 => some .halted
  | _ => none

/-- The burst size stored for a value given (R22). -/
def clampBurst (n : Nat) : Nat := if n < 2 then 1 else if n < 4 then 2 else if n < 8 then 4 else 8

/-- The profile SET PROFILE stores at an index in place of `old` (R22): profile 0 stays used and keeps its class. -/
def clampProfile (index : Nat) (old : Profile) (a : ProfileArgs) : Profile :=
  { used := if index = 0 then true else flagSet a.used
    cls := if index = 0 then old.cls else a.cls
    burst := clampBurst a.burst
    seed := clampTo 1 20000 a.seed
    erase := a.erase
    verify := a.verify
    boot := max 5 a.boot }

/-- The checks SET RULE makes on a rule's fields (R25). -/
def ruleInRange (a : RuleArgs) : Bool := decide (a.prio ≤ 3) && a.imageId != 0 && decide (a.hwMin ≤ a.hwMax)

/-- The rule a SET RULE inserts (R25). -/
def ruleOf (a : RuleArgs) : PlanRule :=
  { cls := a.cls, hwMin := a.hwMin, hwMax := a.hwMax, imageId := a.imageId, prio := a.prio
    downgrade := flagSet a.downgrade }

/-- The range checks PIN UNIT makes on a pin (R29). -/
def pinInRange (imageId prio : Nat) : Bool := decide (prio ≤ 3) && imageId != 0

/-- The settings a SET LINE stores: each value clamped (R85). -/
def clampLine (a : LineArgs) : LineSettings :=
  { rate := min 3 a.rate, timeout := clampTo 100 5000 a.timeout / 100 * 100, retry := min 7 a.retry,
    openLimit := clampTo 1 4 a.openLimit, swapLimit := clampTo 1 4 a.swapLimit, interval := min 3 a.interval,
    enable := flagSet a.enable }

/-- The guard a SET LINE stores (R85). -/
def clampGuard (g : Nat) : Nat := min 3600 g

/-- The optional value of SET DEPARTURE is within its encoding: a presence byte of 0 or 1, and value bytes of 0 when it is
absent (R181). -/
def departureOk (given value : Nat) : Bool := flagOk given && (given != 0 || value == 0)

/-- The value of SET DEPARTURE: the value given, or NONE when its presence byte is 0 (R97, R181). -/
def departureOf (given value : Nat) : Option Nat := if given = 0 then none else some value

end Sys2Proof.Machine
end

