-- ==== Sys2Proof/Machine/Formats.lean ====
section
/-!
DEFINITION. The layouts the part writes (chapter 12): the bytes of a reply (Tables 12.1 and 12.3, R181), of the frames
it sends on a cabin line (Tables 12.4 to 12.6), of an extent tag (Table 12.8) and of the settings record (Table 12.9),
and the reading of a tag (R139) and of the record (R173).
-/

namespace Sys2Proof.Machine

open Sys2Proof

/-! ### Enumerated fields: the index in the defining list (R181) -/

def lineIndex : Line → Nat
  | .A => 0
  | .B => 1

def Presence.index : Presence → Nat
  | .present => 0
  | .silent => 1
  | .absent => 2

def UpdateState.index : UpdateState → Nat
  | .inStep => 0
  | .pending => 1
  | .loading => 2
  | .staged => 3
  | .switching => 4
  | .fallback => 5
  | .held => 6

def TargetNote.index : TargetNote → Nat
  | .noNote => 0
  | .noRule => 1
  | .incompatible => 2
  | .tooLarge => 3
  | .noDowngrade => 4

def Origin.index : Origin → Nat
  | .plan => 0
  | .pin => 1

def BootPhase.index : BootPhase → Nat
  | .first => 0
  | .second => 1

def RevertProgress.index : RevertProgress → Nat
  | .idle => 0
  | .queued => 1
  | .taken => 2

def InstallOutcome.index : InstallOutcome → Nat
  | .installed => 0
  | .reverted => 1
  | .lost => 2

def JobState.index : JobState → Nat
  | .queued => 0
  | .starting => 1
  | .sending => 2
  | .released => 3
  | .ready => 4
  | .verifying => 5

def LineState.index : LineState → Nat
  | .active => 0
  | .faulted => 1
  | .disabled => 2

def SweepKind.index : SweepKind → Nat
  | .roster => 0
  | .full => 1

def Window.index : Window → Nat
  | .opened => 0
  | .closed => 1

def Mode.index : Mode → Nat
  | .inService => 0
  | .yard => 1
  | .quiet => 2
  | .halted => 3

def HaltCause.index : HaltCause → Nat
  | .setMode => 0
  | .order => 1
  | .pin => 2

def ImageState.index : ImageState → Nat
  | .receiving => 0
  | .checking => 1
  | .stored => 2
  | .damaged => 3
  | .retiring => 4

/-- An intake port: Y or S (Table 7.1; log entry 13). -/
def intakeIndex : Port → Nat
  | .Y => 0
  | .S => 1
  | .V => 2

def FaultKind.index : FaultKind → Nat
  | .capacity => 0
  | .refused => 1
  | .writeFault => 2
  | .sequence => 3
  | .checkFail => 4

def JobFailCause.index : JobFailCause → Nat
  | .noReply => 0
  | .bad => 1
  | .busyTimeout => 2
  | .unitFault _ => 3

/-- The fault kind of a cause, when it is a unit fault (R61). -/
def JobFailCause.fault : JobFailCause → Option FaultKind
  | .unitFault k => some k
  | .noReply => none
  | .bad => none
  | .busyTimeout => none

def CloseFailCause.index : CloseFailCause → Nat
  | .mismatch _ => 0
  | .markFailed => 1
  | .abandoned => 2
  | .dropped => 3

/-- The CRC-32 computed, when the cause is MISMATCH (R133). -/
def CloseFailCause.computed : CloseFailCause → Option Word32
  | .mismatch c => some c
  | .markFailed => none
  | .abandoned => none
  | .dropped => none

def StoreFaultCause.index : StoreFaultCause → Nat
  | .program => 0
  | .tagAbandoned => 1
  | .erase => 2
  | .pageAbandoned => 3

def SweepOutcome.index : SweepOutcome → Nat
  | .complete => 0
  | .cut => 1
  | .notSwept => 2

def SettingsTask.index : SettingsTask → Nat
  | .save => 0
  | .reload => 1

def EngineState.index : EngineState → Nat
  | .idle => 0
  | .reading => 1
  | .programming => 2
  | .erasing => 3
  | .eraseSuspended => 4

/-- The kind of a long order, in the order of R165. -/
def LongOrder.index : LongOrder → Nat
  | .closeImage _ => 0
  | .saveSettings => 1
  | .reloadSettings => 2
  | .sweepNow _ _ => 3
  | .reset => 4

/-- The code of a status (Table 12.3). -/
def Status.code : Status → Nat
  | .done => 0x00
  | .accepted => 0x01
  | .pending => 0x02
  | .busy => 0x03
  | .denied => 0x04
  | .badFrame => 0x05
  | .badOrder => 0x06
  | .range => 0x07
  | .noRoom => 0x08
  | .exists => 0x09
  | .notFound => 0x0A
  | .state => 0x0B
  | .incomplete => 0x0C
  | .blockWritten => 0x0D
  | .starting => 0x0E
  | .halted => 0x0F

/-- An enumerated field: one byte with its index (R181). -/
def bytesIndex (n : Nat) : List Byte := [byte n]

/-- An optional field of one byte (R181). -/
def bytesOpt8 (o : Option Nat) : List Byte := bytesOption 1 (fun n => [byte n]) o

/-- An optional field of two bytes (R181). -/
def bytesOpt16 (o : Option Nat) : List Byte := bytesOption 2 bytes16 o

/-- An optional version (R181). -/
def bytesOptVersion (o : Option Version) : List Byte := bytesOption 4 bytesVersion o

/-! ### Reply data -/

/-- A profile, as Table 12.9 lays it out. -/
def bytesProfile (p : Profile) : List Byte :=
  bytesFlag p.used ++ [byte p.cls, byte p.burst] ++ bytes16 p.seed ++ [byte p.erase, byte p.verify, byte p.boot]

/-- A rule, as Table 12.9 lays it out. -/
def bytesRule (r : PlanRule) : List Byte :=
  [byte r.cls, byte r.hwMin, byte r.hwMax] ++ bytes16 r.imageId ++ [byte r.prio] ++ bytesFlag r.downgrade

/-- A line's settings, as Table 12.9 lays them out. -/
def bytesLine (x : LineSettings) : List Byte :=
  [byte x.rate] ++ bytes16 x.timeout ++ [byte x.retry, byte x.openLimit, byte x.swapLimit, byte x.interval]
    ++ bytesFlag x.enable

/-- One line of LIST IMAGES (R141). -/
def bytesSummary (x : ImageSummary) : List Byte :=
  bytes16 x.id ++ bytesIndex x.state.index ++ bytesVersion x.version ++ bytes16 x.length ++ bytes16 x.received
    ++ [byte x.jobCount]

/-- READ IMAGE's data (R141). The extent numbers and the MISSING blocks stand after the job count, each as a list (the
model's choice, log entry 13). -/
def bytesImage (r : ImageReport) : List Byte :=
  bytes16 r.id ++ bytesIndex r.state.index ++ bytesOpt8 (r.intake.map intakeIndex)
    ++ [byte r.cls, byte r.hwMin, byte r.hwMax] ++ bytesVersion r.version ++ bytes16 r.length ++ bytesCrc32 r.crc
    ++ bytes16 r.received ++ bytesFlag r.markPending ++ bytesFlag r.markFailed ++ [byte r.jobCount]
    ++ bytesList bytes16 r.extents ++ bytesList bytes16 r.missing

/-- A bank: its optional version, then its valid flag (Table 1.1). -/
def bytesBank (b : BankRecord) : List Byte := bytesOptVersion b.version ++ bytesFlag b.valid

/-- A loading mark (Table 1.1). -/
def bytesMark (m : LoadingMark) : List Byte := bytesVersion m.version ++ bytesCrc32 m.crc ++ bytes16 m.fill

/-- A target (Table 1.1). -/
def bytesTarget (t : Target) : List Byte :=
  bytes16 t.imageId ++ bytesVersion t.version ++ [byte t.prio] ++ bytesIndex t.origin.index ++ bytesFlag t.noRetry

/-- A pin (Table 1.1). -/
def bytesPin (p : Pin) : List Byte := bytes16 p.imageId ++ [byte p.prio] ++ bytesFlag p.noRetry

/-- A history record (R18). -/
def bytesHistory (h : HistoryRecord) : List Byte :=
  bytesVersion h.version ++ bytes32 h.time ++ bytesIndex h.outcome.index

/-- The job of an entry (R171). -/
def bytesJob (x : Nat × Job) : List Byte :=
  [byte x.1] ++ bytesIndex x.2.state.index ++ bytes16 x.2.next ++ bytes16 x.2.imageId ++ [byte x.2.prio]
    ++ bytesFlag x.2.deferred ++ bytesFlag x.2.everOpened

/-- The boot timer of an entry in SWITCHING or FALLBACK, and whether it is paused (R171). -/
def bytesBoot (paused : Bool) (b : BootTimer) : List Byte :=
  [byte b.seconds] ++ bytesIndex b.phase.index ++ bytesFlag paused

/-- The revert progress, present in SWITCHING, FALLBACK and HELD (R122, R171). -/
def Entry.shownRevert (e : Entry) : Option Nat :=
  if e.activating ∨ e.state = .held then some e.revert.index else none

/-- READ UNIT's data (R171): Table 1.1 with the boot timer and the history at the places R171 lists them, the latter
once (log entry 13). -/
def bytesUnit (u : UnitDetail) : List Byte :=
  let e := u.entry
  bytesIndex (lineIndex e.line) ++ [byte e.address] ++ bytes32 e.serial ++ [byte e.classCode, byte e.hwRev]
    ++ bytes16 e.capacity ++ bytesBank e.bank0 ++ bytesBank e.bank1
    ++ bytesIndex (match e.running with
        | .b0 => 0
        | .b1 => 1)
    ++ bytesFlag e.bootFault ++ bytesOption 10 bytesMark e.loading ++ bytesIndex e.presence.index ++ [byte e.missed]
    ++ [byte e.profile] ++ bytes16 e.estimate ++ bytesOption 9 bytesTarget e.target ++ bytesIndex e.note.index
    ++ bytesOption 4 bytesPin e.yardPin ++ bytesOption 4 bytesPin e.servicePin ++ bytesIndex e.state.index
    ++ [byte e.failCount] ++ bytesOptVersion e.prior ++ bytesOpt16 e.refused ++ bytesFlag e.owed
    ++ bytesOption 9 bytesJob u.job ++ bytesOption 3 (bytesBoot u.paused) e.bootTimer ++ bytesOpt8 e.shownRevert
    ++ bytesList bytesHistory e.history

/-- One slot of READ ROSTER (R171). -/
def bytesRosterSummary (r : RosterSummary) : List Byte :=
  bytesIndex (lineIndex r.line) ++ [byte r.address] ++ bytes32 r.serial ++ bytesIndex r.presence.index
    ++ bytesIndex r.state.index ++ [byte r.failCount] ++ bytesOptVersion r.running ++ bytesOpt8 r.tag

/-- The eight counters, in the order of Table 4.5. -/
def bytesStats (t : Stats) : List Byte :=
  bytes16 t.framesSent ++ bytes16 t.goodReplies ++ bytes16 t.noReplies ++ bytes16 t.parityErrors
    ++ bytes16 t.framingErrors ++ bytes16 t.crcErrors ++ bytes16 t.retries ++ bytes16 t.blocksDelivered

/-- READ LINE's data (R87). The kind and cursor of the sweep in progress go as one optional field of two bytes, absent when
no sweep runs (the model's choice, log entry 13). -/
def bytesLineReport (r : LineReport) : List Byte :=
  bytesLine r.settings ++ bytes16 r.guardTime ++ bytesIndex r.state.index ++ [byte r.run, byte r.charges]
    ++ bytesOption 2 (fun x : SweepKind × Nat => bytesIndex x.1.index ++ [byte x.2]) r.sweep
    ++ [byte r.openJobs, byte r.swapping] ++ bytesStats r.stats

/-- One line's part of READ STATUS (R170). -/
def bytesLineStatus (x : LineStatus) : List Byte :=
  bytesIndex x.state.index ++ [byte x.openJobs, byte x.swapping]

/-- READ STATUS's data (R170). The widths of its numbers are the model's choice (log entry 12). -/
def bytesStatus (r : StatusReport) : List Byte :=
  bytesIndex (if r.starting then 0 else 1) ++ bytesIndex r.mode.index ++ bytesOpt8 r.hold
    ++ bytesOpt8 (r.cause.map HaltCause.index) ++ bytesIndex (if r.asserted then 1 else 0) ++ bytesOpt16 r.countdown
    ++ bytesIndex r.window.index ++ bytes16 r.guardTime ++ bytes32 r.depotTime ++ bytesFlag r.depotSet
    ++ bytesLineStatus r.lineA ++ bytesLineStatus r.lineB ++ [byte r.occupied, byte r.jobs, byte r.heldCount]
    ++ bytes16 r.free ++ bytes16 r.dirty ++ bytes16 r.bad ++ [byte r.records] ++ bytesIndex r.engine.index
    ++ [byte r.suspCount] ++ (r.waiting.map bytesFlag).flatten ++ bytesOpt8 (r.slot.map LongOrder.index)
    ++ (r.mask.map bytesFlag).flatten

/-- The qualifier of an event (Table 10.2). -/
def bytesQualifier : Event → List Byte
  | .started i l => bytesFlag i ++ bytesFlag l
  | .unitJoined s => [byte s]
  | .unitLost s => [byte s]
  | .unitChanged s v => [byte s] ++ bytesOptVersion v
  | .rosterFull l a => bytesIndex (lineIndex l) ++ [byte a]
  | .staged s => [byte s]
  | .installed s v => [byte s] ++ bytesVersion v
  | .reverted s v r => [byte s] ++ bytesVersion v ++ bytesOptVersion r
  | .unitHeld s => [byte s]
  | .jobFailed s t i c n =>
    [byte s, byte t] ++ bytes16 i ++ bytesIndex c.index ++ bytesOpt8 (c.fault.map FaultKind.index) ++ bytes16 n
  | .windowCutoff c g => bytes16 c ++ bytes16 g
  | .lineFault l => bytesIndex (lineIndex l)
  | .lineRecovered l => bytesIndex (lineIndex l)
  | .sweepDone a b => bytesIndex a.index ++ bytesIndex b.index
  | .closeDone i => bytes16 i
  | .closeFailed i c => bytes16 i ++ bytesIndex c.index ++ bytesOption 4 bytesCrc32 c.computed
  | .storeLow f d b => bytes16 f ++ bytes16 d ++ bytes16 b
  | .storeFault x c i => bytes16 x ++ bytesIndex c.index ++ bytesOpt16 i
  | .saveDone t s l => bytesIndex t.index ++ bytesFlag s ++ bytesFlag l
  | .modeExpired m => bytesIndex m.index

/-- The full width of each event's qualifier, in the order of Table 10.2. -/
def qualifierWidths : List Nat := [2, 1, 1, 6, 2, 1, 5, 10, 1, 9, 4, 1, 1, 2, 2, 8, 6, 6, 3, 1]

/-- One flag of READ EVENTS (R169): its state, its count and, when SET, its qualifier (log entry 13). -/
def bytesEventFlag (f : EventFlag) (width : Nat) : List Byte :=
  bytesFlag f.isSet ++ [byte f.count] ++ bytesOption width bytesQualifier (if f.isSet then f.qual else none)

/-- The data of a reply (R181). A field whose width no table gives takes the fewest bytes that hold its range (the model's
choice, log entry 12). -/
def encodeData : ReplyData → List Byte
  | .empty => []
  | .count n => bytes16 n
  | .position n => [byte n]
  | .profile p => bytesProfile p
  | .lines a b g => bytesLine a ++ bytesLine b ++ bytes16 g
  | .countdown c => bytesOpt16 c
  | .mask m => (m.map bytesFlag).flatten
  | .time t => bytes32 t
  | .images f d b xs => bytes16 f ++ bytes16 d ++ bytes16 b ++ bytesList bytesSummary xs
  | .image r => bytesImage r
  | .plan rules profiles => bytesList bytesRule rules ++ (profiles.map bytesProfile).flatten
  | .unitData u => bytesUnit u
  | .roster xs => bytesList (bytesOption 16 bytesRosterSummary) xs
  | .line r => bytesLineReport r
  | .statusData r => bytesStatus r
  | .events xs => (List.zipWith bytesEventFlag xs qualifierWidths).flatten

/-- A frame's length field, code and body, closed by its CRC-16 (Table 12.1, R179). -/
def portFrame (code : Nat) (body : List Byte) : List Byte :=
  let head := bytes16 (body.length + 5) ++ [byte code] ++ body
  head ++ bytesCrc16 head

/-- The frame of a reply (Tables 12.1 and 12.3). -/
def replyFrame (r : Reply) : List Byte := portFrame r.status.code (encodeData r.data)

/-- What a read finds before any order has been taken: PENDING with no data (R161). -/
def noReplyYet : Reply := { status := .pending, data := .empty }

/-! ### Cabin frames -/

/-- A cabin frame (Table 12.4). -/
def cabinFrame (address kind tag : Nat) (payload : List Byte) : List Byte :=
  let head := [byte address, byte kind, byte tag] ++ bytes16 payload.length ++ payload
  head ++ bytesCrc16 head

/-- A LOAD's payload (Table 12.6): mode and length share two bytes. -/
def loadPayload (img : Image) (mode : LoadMode) : List Byte :=
  bytesVersion img.version
    ++ bytes16 ((match mode with
        | .fresh => 0
        | .resume => 32768) + img.length % 4096)
    ++ bytesCrc32 img.crc

/-- The frame an exchange sends as its `i`-th (R65, Tables 12.5 and 12.6); none for a frame whose contents the state
does not hold. -/
def State.wireFrame (s : State) (l : Line) (x : Exchange) (i : Nat) : Option (List Byte) :=
  let frame (kind : Nat) (payload : List Byte) := some (cabinFrame x.address kind x.purpose.frameTag payload)
  match x.purpose with
  | .rosterProbe _ => frame 0x01 []
  | .fullProbe => frame 0x01 []
  | .activationProbe _ => frame 0x01 []
  | .recoveryProbe => frame 0x01 []
  | .load tag mode =>
    match (s.job tag).bind fun j => s.image j.imageId with
    | none => none
    | some img => frame 0x02 (loadPayload img mode)
  | .burst _ first _ =>
    match (s.line l).buffer.bind fun b => b.blocks[i]? with
    | none => none
    | some data => frame 0x03 (bytes16 (first + i) ++ data)
  | .poll _ => frame 0x04 []
  | .check _ => frame 0x05 []
  | .swap _ =>
    match x.expected with
    | none => none
    | some v => frame 0x06 (bytesVersion v)
  | .revert _ => frame 0x07 []

/-- The frame now on a line's wire, if one is (R63). -/
def State.onWire (s : State) (l : Line) : Option (List Byte) :=
  match (s.line l).exchange with
  | none => none
  | some x =>
    match x.phase with
    | .sending i => s.wireFrame l x i
    | _ => none

/-- The characters now on a line's wire, each with its bit 0 first (R63). -/
def State.wireChars (s : State) (l : Line) : Option (List (BitVec 11)) := (s.onWire l).map fun bs => bs.map charBits

/-! ### Extent tags -/

/-- The identity fields of the tag at a position (Table 12.8, bytes 0 to 13). -/
def identityBytes (img : Image) (position : Nat) : List Byte :=
  let body := bytes16 img.id ++ bytesVersion img.version ++ bytes16 img.length ++ bytes16 position
    ++ bytes16 (ceilDiv img.length Config.blocksPerExtent)
  body ++ bytesCrc16 body

/-- Where the close mark stands in the tag (Table 12.8). -/
def closeMarkAt : Nat := 64

/-- Where the drop mark stands in the tag (Table 12.8). -/
def dropMarkAt : Nat := 128

/-- The close mark (Table 12.8, bytes 64 to 72). -/
def closeMarkBytes (img : Image) : List Byte :=
  let body := bytesCrc32 img.crc ++ [byte img.cls, byte img.hwMin, byte img.hwMax]
  body ++ bytesCrc16 body

/-- The drop mark, 0x0000 (Table 12.8). -/
def dropMarkBytes : List Byte := [0, 0]

/-- A close mark's nine bytes, when they are a valid close mark (R139, section 12.4): CRC-32, class code, hardware range. -/
def closeFieldOf (field : List Byte) : Option (Word32 × Nat × Nat × Nat) :=
  if field.all (· == Config.erasedByte) then none
  else if (crc16 (field.take 7)).toNat ≠ num16 field 7 then none
  else some (BitVec.ofNat 32 (num32 field 0), num8 field 4, num8 field 5, num8 field 6)

/-- The close mark of a tag page, when it is valid (R139). -/
def closeMarkOf (page : List Byte) : Option (Word32 × Nat × Nat × Nat) := closeFieldOf ((page.drop closeMarkAt).take 9)

/-- The drop mark of a tag page is present: either byte is not erased (section 12.4). -/
def dropMarkOf (page : List Byte) : Bool := ((page.drop dropMarkAt).take 2).any (· != Config.erasedByte)

/-- The identity fields of a tag page pass R139's tests. -/
def identityOk (page : List Byte) : Bool :=
  (crc16 (page.take 12)).toNat == num16 page 12
    && decide (1 ≤ num16 page 0) && decide (1 ≤ num16 page 6) && decide (num16 page 6 ≤ Config.maxImageBlocks)
    && num16 page 10 == ceilDiv (num16 page 6) Config.blocksPerExtent && decide (num16 page 8 < num16 page 10)

/-- The class of a tag page (R139). -/
def classifyTag (page : List Byte) : TagClass :=
  if page.all (· == Config.erasedByte) then .erased
  else if identityOk page then
    .wellFormed
      { id := num16 page 0, version := numVersion page 2, length := num16 page 6, position := num16 page 8,
        total := num16 page 10, close := closeMarkOf page, drop := dropMarkOf page }
  else .broken

/-! ### The settings record -/

/-- The contents of a settings record, as they are applied (R173, R174). The line settings, the guard and the profiles
stand as read, before clamping. -/
structure SettingsSet where
  lineA       : LineArgs
  lineB       : LineArgs
  guardTime   : Nat
  profiles    : List ProfileArgs
  rules       : List PlanRule
  yardPins    : List PinRecord
  servicePins : List PinRecord
  heldSerials : List Nat
  deriving DecidableEq, Repr

/-- A list in places of a fixed width, the places beyond it left 0xFF (Table 12.9). -/
def bytesPlaces {α : Type} (places width : Nat) (f : α → List Byte) (xs : List α) : List Byte :=
  [byte xs.length] ++ (xs.map f).flatten ++ List.replicate ((places - xs.length) * width) Config.erasedByte

/-- A pin record (Table 12.9). -/
def bytesPinRecord (r : PinRecord) : List Byte := bytes32 r.serial ++ bytesPin r.pin

/-- Bytes 0 to 1019 of the record (Table 12.9) of working memory as it stands (R175). -/
def State.recordBody (s : State) : List Byte :=
  bytesLine s.lineA.settings ++ bytesLine s.lineB.settings ++ bytes16 s.guardTime
    ++ (s.profiles.map bytesProfile).flatten
    ++ bytesPlaces Config.maxRules 7 bytesRule s.rules
    ++ bytesPlaces Config.maxPins 8 bytesPinRecord s.yardPins
    ++ bytesPlaces Config.maxPins 8 bytesPinRecord s.servicePins
    ++ bytesPlaces Config.maxPins 4 bytes32 s.heldSerials
    ++ List.replicate 118 Config.erasedByte

/-- The settings record of working memory, with its CRC-32 (R173, R175). -/
def State.record (s : State) : List Byte := s.recordBody ++ bytesCrc32 (crc32 s.recordBody)

/-- The line settings at an offset of the record (Table 12.9). -/
def lineAt (r : List Byte) (i : Nat) : LineArgs :=
  { rate := num8 r i, timeout := num16 r (i + 1), retry := num8 r (i + 3), openLimit := num8 r (i + 4),
    swapLimit := num8 r (i + 5), interval := num8 r (i + 6), enable := num8 r (i + 7) }

/-- The profile at an offset of the record (Table 12.9). -/
def profileAt (r : List Byte) (i : Nat) : ProfileArgs :=
  { used := num8 r i, cls := num8 r (i + 1), burst := num8 r (i + 2), seed := num16 r (i + 3), erase := num8 r (i + 5),
    verify := num8 r (i + 6), boot := num8 r (i + 7) }

/-- The rule at an offset of the record, as given (Table 12.9). -/
def ruleAt (r : List Byte) (i : Nat) : RuleArgs :=
  { cls := num8 r i, hwMin := num8 r (i + 1), hwMax := num8 r (i + 2), imageId := num16 r (i + 3), prio := num8 r (i + 5),
    downgrade := num8 r (i + 6) }

/-- The pin record at an offset of the record (Table 12.9). -/
def pinAt (r : List Byte) (i : Nat) : PinRecord :=
  { serial := num32 r i
    pin := { imageId := num16 r (i + 4), prio := num8 r (i + 6), noRetry := flagSet (num8 r (i + 7)) } }

/-- The items of a list in places: its count stands at `i`, its first place after it (Table 12.9). -/
def placesAt {α : Type} (width : Nat) (f : List Byte → Nat → α) (r : List Byte) (i : Nat) : List α :=
  (List.range (num8 r i)).map fun k => f r (i + 1 + width * k)

/-- No two are equal. -/
def allDistinct : List Nat → Bool
  | [] => true
  | x :: xs => !xs.contains x && allDistinct xs

/-- The pin records of a list pass R173's tests. -/
def pinsValid (xs : List PinRecord) : Bool :=
  xs.all (fun r => pinInRange r.pin.imageId r.pin.prio) && allDistinct (xs.map PinRecord.serial)

/-- The contents of a record by Table 12.9. -/
def recordContents (r : List Byte) : SettingsSet :=
  { lineA := lineAt r 0, lineB := lineAt r 8, guardTime := num16 r 16
    profiles := (List.range 16).map fun k => profileAt r (18 + 8 * k)
    rules := (placesAt 7 ruleAt r 146).map ruleOf
    yardPins := placesAt 8 pinAt r 259, servicePins := placesAt 8 pinAt r 516, heldSerials := placesAt 4 num32 r 773 }

/-- The record's bytes are valid (R173). -/
def recordValid (r : List Byte) : Bool :=
  !r.all (· == Config.erasedByte)
    && (crc32 (r.take 1020)).toNat == num32 r 1020
    && decide (num8 r 146 ≤ Config.maxRules) && decide (num8 r 259 ≤ Config.maxPins)
    && decide (num8 r 516 ≤ Config.maxPins) && decide (num8 r 773 ≤ Config.maxPins)
    && (placesAt 7 ruleAt r 146).all ruleInRange
    && pinsValid (placesAt 8 pinAt r 259) && pinsValid (placesAt 8 pinAt r 516)
    && allDistinct (placesAt 4 num32 r 773)

/-- The contents of a valid record; none when it is not valid (R173). -/
def readRecord (r : List Byte) : Option SettingsSet := if recordValid r then some (recordContents r) else none

/-- Line settings as the values that give them. -/
def LineSettings.args (x : LineSettings) : LineArgs :=
  { rate := x.rate, timeout := x.timeout, retry := x.retry, openLimit := x.openLimit, swapLimit := x.swapLimit,
    interval := x.interval, enable := if x.enable then 1 else 0 }

/-- A profile as the values that give it. -/
def Profile.args (p : Profile) : ProfileArgs :=
  { used := if p.used then 1 else 0, cls := p.cls, burst := p.burst, seed := p.seed, erase := p.erase,
    verify := p.verify, boot := p.boot }

/-- The factory defaults as a set (R174). -/
def factorySet : SettingsSet :=
  { lineA := defaultLineSettings.args, lineB := defaultLineSettings.args, guardTime := defaultGuard
    profiles := defaultProfiles.map Profile.args, rules := [], yardPins := [], servicePins := [], heldSerials := [] }

end Sys2Proof.Machine
end

