-- ==== Sys2Proof/Machine/FlashEngine.lean ====
section
/-!
DEFINITION. The Flash Engine (chapter 8): its derived state (R143), the arbiter's choice (R144, R147), the suspension
rule (R146), the end of an operation, what one that fails or is cut off leaves in the flash (R150, R151, R175), the full
reset (R177), the withdrawal of requests (R145), and where an operation reads and writes.
-/

namespace Sys2Proof.Machine

open Sys2Proof

/-! ### What an operation is -/

/-- The operation is an erase (R144). -/
def FlashOp.isErase : FlashOp → Bool
  | .settingsErase => true
  | .erase _ => true
  | .lineRead _ _ _ => false
  | .program _ => false
  | .checkRead _ _ => false
  | .settingsRead => false
  | .settingsPage _ => false
  | .tagRead _ => false

/-- The operation is a program of any kind (R148). -/
def FlashOp.isProgram : FlashOp → Bool
  | .program _ => true
  | .settingsPage _ => true
  | .lineRead _ _ _ => false
  | .checkRead _ _ => false
  | .settingsRead => false
  | .settingsErase => false
  | .tagRead _ => false
  | .erase _ => false

/-- The engine's state (R143). -/
def FlashEngine.engineState (f : FlashEngine) : EngineState :=
  match f.op with
  | some op => if op.isErase then .erasing else if op.isProgram then .programming else .reading
  | none => if f.suspended.isSome then .eraseSuspended else .idle

/-- For each of the five classes, whether a request waits (R170). -/
def FlashEngine.waiting (f : FlashEngine) : List Bool :=
  [f.readA.isSome || f.readB.isSome, !f.programs.isEmpty, !f.checks.isEmpty, f.class4.isSome, f.class5.isSome]

/-! ### The arbiter -/

/-- Takes the waiting request of classes 1 to 3 that is served first (R144, step 1): line A's read before line B's, the
heads of the FIFOs. -/
def FlashEngine.takeUrgent (f : FlashEngine) : Option FlashEngine :=
  match f.readA, f.readB, f.programs, f.checks with
  | some r, _, _, _ => some { f with readA := none, op := some (.lineRead .A r true) }
  | none, some r, _, _ => some { f with readB := none, op := some (.lineRead .B r true) }
  | none, none, p :: ps, _ => some { f with programs := ps, op := some (.program p) }
  | none, none, [], c :: cs => some { f with checks := cs, op := some (.checkRead c true) }
  | none, none, [], [] => none

/-- The class-4 request that may be served under a suspended erase: of a higher class than the erase and no erase itself
(R144, step 2). -/
def FlashEngine.class4Under (f : FlashEngine) (er : FlashOp) : Option FlashOp :=
  match er with
  | .settingsErase => none
  | _ => f.class4.filter fun op => !op.isErase

/-- Serves the waiting class-4 request. -/
def FlashEngine.takeClass4 (f : FlashEngine) (op : FlashOp) : FlashEngine :=
  { f with class4 := none, op := some op, suspCount := if op.isErase then 0 else f.suspCount }

/-- The choice with an erase suspended: a request to serve under it, or the resume command (R144, R147). -/
def FlashEngine.chooseUnder (f : FlashEngine) (er : FlashOp) : FlashEngine :=
  match f.takeUrgent with
  | some g => g
  | none =>
    match f.class4Under er with
    | some op => f.takeClass4 op
    | none => { f with op := some er, suspended := none }

/-- The choice with nothing suspended: the highest class that waits; an erase starts with a suspension count of 0
(R144, R146). -/
def FlashEngine.chooseFree (f : FlashEngine) : FlashEngine :=
  match f.takeUrgent with
  | some g => g
  | none =>
    match f.class4, f.class5 with
    | some op, _ => f.takeClass4 op
    | none, some x => { f with class5 := none, op := some (.erase x), suspCount := 0 }
    | none, none => f

/-- A request waits for which R146 suspends the erase: of a higher class than the erase and no erase itself. -/
def FlashEngine.urgentOver (f : FlashEngine) (er : FlashOp) : Bool :=
  f.takeUrgent.isSome || (f.class4Under er).isSome

/-- What the arbiter does with an operation in progress: it sends the suspend command for a running erase when R146
allows, once. -/
def FlashEngine.maySuspend (f : FlashEngine) (op : FlashOp) : FlashEngine :=
  if op.isErase && !f.suspending && decide (f.suspCount < Config.suspendCap) && f.urgentOver op then
    { f with suspending := true }
  else f

/-- The arbiter's choice (R144): none while the recovery hold is present. -/
def FlashEngine.choose (f : FlashEngine) : FlashEngine :=
  if f.hold then f
  else
    match f.op, f.suspended with
    | some op, _ => f.maySuspend op
    | none, some er => f.chooseUnder er
    | none, none => f.chooseFree

/-- The arbiter's choice at the end of a step: none while the mode is HALTED (R144; log entry 9). -/
def State.flashChoose (s : State) : State := if s.halted then s else s.modEng FlashEngine.choose

/-! ### What a failed or cut-off operation leaves -/

/-- The bytes of the flash an operation writes, as address and count. -/
def FlashOp.writes : FlashOp → Option (Nat × Nat)
  | .program p => some (p.addr, p.bytes.length)
  | .settingsErase => some (0, Config.extentBytes)
  | .settingsPage page => some (pageAddr 0 page, Config.pageBytes)
  | .erase extent => some (pageAddr extent 0, Config.extentBytes)
  | .lineRead _ _ _ => none
  | .checkRead _ _ => none
  | .settingsRead => none
  | .tagRead _ => none

/-- Changes what the flash holds. -/
def State.modFlash (s : State) (f : List Host.Cell → List Host.Cell) : State := { s with flash := f s.flash }

/-- The bytes an operation was writing take free contents (R150, R151; log entry 4). -/
def State.scramble (s : State) (op : FlashOp) : State :=
  match op.writes with
  | none => s
  | some (addr, count) =>
    if addr + count ≤ flashBytes then
      { s with flash := flashSpoil s.flash s.flashUse addr count, flashUse := s.flashUse + 1 }
    else s

/-- The settings record as the flash holds it (R173). -/
def State.storedRecord (s : State) : List Byte := flashReadRange s.flash (pageAddr 0 0) Config.recordBytes

/-- Where in a page of the settings record a list's count stands (Table 12.9). -/
def countPlace : Nat → Option Nat
  | 0 => some 146
  | 1 => some 259
  | 2 => some 516
  | 3 => some 773
  | _ => none

/-- The list count, among the bytes a settings operation was writing, that keeps the record from being valid (R175). -/
def FlashOp.recordCount : FlashOp → Option Nat
  | .settingsErase => countPlace 0
  | .settingsPage page => countPlace page
  | .program _ => none
  | .erase _ => none
  | .lineRead _ _ _ => none
  | .checkRead _ _ => none
  | .settingsRead => none
  | .tagRead _ => none

/-- What an operation that fails or is cut off leaves in the flash: free contents where it was writing (R150, R151; log
entry 4). A settings erase or page leaves no valid record (R175): where the free contents would read as one, a list count
among them is 0xFF, above every list's limit (log entry 33). -/
def State.spoil (s : State) (op : FlashOp) : State :=
  let t := s.scramble op
  match op.recordCount with
  | none => t
  | some a => if recordValid t.storedRecord then t.modFlash fun m => flashWrite m a Config.erasedByte else t

/-- An identity field that was cut off fails its CRC-16 (R151): where the free contents read as a tag that is not broken,
they begin with image id 0 (log entry 33). -/
def State.breakTag (s : State) (p : Program) : State :=
  if classifyTag (flashReadRange s.flash p.addr Config.pageBytes) = .broken then s
  else s.modFlash fun m => flashWriteAll m p.addr ((p.bytes.take 2).map fun _ => 0)

/-- A close mark that was cut off is not valid (Table 8.2): where the free contents read as a valid one, they are erased
bytes (log entry 33). -/
def State.breakMark (s : State) (p : Program) : State :=
  if (closeFieldOf (flashReadRange s.flash p.addr 9)).isNone then s
  else s.modFlash fun m => flashErase m p.addr p.bytes.length

/-- What an operation that is cut off, by HALTED, by the device's reset command or by a full reset, leaves in the flash
(R150, R151, Table 8.2). -/
def State.cutOff (s : State) (op : FlashOp) : State :=
  match op with
  | .program p =>
    let t := s.spoil op
    match p.kind, decide (p.addr + p.bytes.length ≤ flashBytes) with
    | .identity, true => t.breakTag p
    | .closeMark, true => t.breakMark p
    | _, _ => t
  | _ => s.spoil op

/-- Cuts off an optional operation. -/
def State.cutOffOpt (s : State) : Option FlashOp → State
  | none => s
  | some op => s.cutOff op

/-- A save that ends before its record is whole leaves no valid record, also when its erase or its next page had not
started (R175; log entry 33). -/
def State.loseRecord (s : State) : State := if recordValid s.storedRecord then s.spoil .settingsErase else s

/-- A save is in progress (R175). -/
def State.saving (s : State) : Bool :=
  match s.settings.op with
  | .saving _ => true
  | _ => false

/-- The flash as a full reset leaves it (R151, R175). -/
def State.cutFlash (s : State) : State :=
  let t := (s.cutOffOpt s.eng.op).cutOffOpt s.eng.suspended
  if s.saving then t.loseRecord else t

/-- A full reset (R177): every block takes its full-reset values and the start-up phase begins; the flash keeps what
it held, but for what was cut off (R151, R175). The queue of commands is no block's. -/
def State.fullReset (s : State) : State :=
  let t := s.cutFlash
  { State.reset with pending := s.pending, flash := t.flash, flashUse := t.flashUse }

/-! ### Ends -/

/-- The operation in progress has ended: the count of an erase is cleared with it, and a suspend command that came too
late has no effect (R146). -/
def FlashEngine.ended (f : FlashEngine) : FlashEngine :=
  { f with
    op := none, suspending := false
    suspCount := if f.op.any FlashOp.isErase then 0 else f.suspCount }

/-- Ends the operation in progress. -/
def State.endOp (s : State) : State := s.modEng FlashEngine.ended

/-- The device reports the erase suspended (R146). -/
def FlashEngine.eraseStopped (f : FlashEngine) : FlashEngine :=
  { f with op := none, suspended := f.op, suspending := false, suspCount := f.suspCount + 1 }

/-- The program in progress, when it is of a kind. -/
def State.runningProgram (s : State) (kind : ProgramKind → Bool) : Option Program :=
  match s.eng.op with
  | some (.program p) => if kind p.kind then some p else none
  | _ => none

def ProgramKind.isBlock : ProgramKind → Bool
  | .block _ _ => true
  | .identity => false
  | .closeMark => false
  | .dropMark => false

def ProgramKind.isIdentity : ProgramKind → Bool
  | .identity => true
  | .block _ _ => false
  | .closeMark => false
  | .dropMark => false

def ProgramKind.isCloseMark : ProgramKind → Bool
  | .closeMark => true
  | .identity => false
  | .block _ _ => false
  | .dropMark => false

def ProgramKind.isDropMark : ProgramKind → Bool
  | .dropMark => true
  | .identity => false
  | .block _ _ => false
  | .closeMark => false

/-- The outcome of a write that has ended: good, the flash holds what was written; failed, its bytes take free contents
(R148, R150; log entries 4 and 5). -/
def State.wrote (s : State) (op : FlashOp) (ok : Bool) (write : List Host.Cell → List Host.Cell) : State :=
  if ok then s.modFlash write else s.spoil op

/-! ### Requests and withdrawals -/

/-- Requests a program of class 2 (R145: a FIFO in the order requested). -/
def State.requestProgram (s : State) (p : Program) : State :=
  s.modEng fun f => { f with programs := f.programs ++ [p] }

/-- Marks the program in progress as one whose outcome is discarded, when it is of an image (R130, R135). -/
def FlashOp.discardProgram (id : Nat) : FlashOp → FlashOp
  | .program p => .program (if p.image = id then { p with live := false } else p)
  | .lineRead l r live => .lineRead l r live
  | .checkRead r live => .checkRead r live
  | .settingsRead => .settingsRead
  | .settingsErase => .settingsErase
  | .settingsPage n => .settingsPage n
  | .tagRead x => .tagRead x
  | .erase x => .erase x

/-- Marks the close-check read in progress as one whose data is discarded, when it is of an image (R135). -/
def FlashOp.discardCheck (id : Nat) : FlashOp → FlashOp
  | .checkRead r live => .checkRead r (if r.imageId = id then false else live)
  | .program p => .program p
  | .lineRead l r live => .lineRead l r live
  | .settingsRead => .settingsRead
  | .settingsErase => .settingsErase
  | .settingsPage n => .settingsPage n
  | .tagRead x => .tagRead x
  | .erase x => .erase x

/-- Withdraws the programs of an image that have not started (R145). -/
def State.withdrawPrograms (s : State) (id : Nat) : State :=
  s.modEng fun f => { f with programs := f.programs.filter fun p => p.image != id }

/-- The store wants no outcome of an image's program in progress (R130, R135). -/
def State.discardPrograms (s : State) (id : Nat) : State :=
  s.modEng fun f => { f with op := f.op.map (FlashOp.discardProgram id) }

/-- Withdraws an image's close-check read, or discards the data of one in progress (R135, R145). -/
def State.dropCheck (s : State) (id : Nat) : State :=
  s.modEng fun f =>
    { f with checks := f.checks.filter fun c => c.imageId != id, op := f.op.map (FlashOp.discardCheck id) }

/-! ### Places in the flash -/

/-- The extent that holds a block of an image (R123); none for a position that the image does not have. -/
def Image.extentOf (r : Image) (block : Nat) : Option Nat := r.extents[block / Config.blocksPerExtent]?

/-- The flash address of a block of an image (R123). -/
def Image.blockAddr (r : Image) (block : Nat) : Option Nat :=
  (r.extentOf block).map fun x => pageAddr x (block % Config.blocksPerExtent + 1)

/-- The bytes of a block of an image as the flash holds them. -/
def State.blockBytes (s : State) (r : Image) (block : Nat) : List Byte :=
  match r.blockAddr block with
  | none => []
  | some a => flashReadRange s.flash a Config.pageBytes

/-- The blocks of a line read, as the flash holds them (R70, R142). -/
def State.readBlocks (s : State) (r : LineRead) : List (List Byte) :=
  match s.image r.imageId with
  | none => []
  | some img => (List.range r.count).map fun i => s.blockBytes img (r.first + i)

/-- An address and a length lie within the 8 MiB of the flash. -/
def insideFlash (addr count : Nat) : Bool := decide (addr + count ≤ flashBytes)

/-- A block of an image lies within the flash. -/
def State.blockInside (s : State) (id block : Nat) : Bool :=
  match (s.image id).bind fun r => r.blockAddr block with
  | none => true
  | some a => insideFlash a Config.pageBytes

/-- Every byte the operation in progress reads or writes lies within the flash (log entry 29). -/
def State.opInside (s : State) : Bool :=
  match s.eng.op with
  | none => true
  | some (.lineRead _ r _) => (List.range r.count).all fun i => s.blockInside r.imageId (r.first + i)
  | some (.program p) => insideFlash p.addr p.bytes.length
  | some (.checkRead r _) => s.blockInside r.imageId r.block
  | some .settingsRead => true
  | some .settingsErase => true
  | some (.settingsPage n) => insideFlash (pageAddr 0 n) Config.pageBytes
  | some (.tagRead x) => insideFlash (pageAddr x 0) Config.pageBytes
  | some (.erase x) => insideFlash (pageAddr x 0) Config.extentBytes

end Sys2Proof.Machine
end

