-- ==== Sys2Proof/Machine/StoreOps.lean ====
section
/-!
DEFINITION. The Image Store's operations (chapter 7): the moves of extents between standings (R124), freeing a record
(R126, R137, R38), damaging an image (R130), requesting programs (R129, R134, R136), and the ends of mark programs
(R134 to R137).
-/

namespace Sys2Proof.Machine

open Sys2Proof

/-! ### Standings and records -/

/-- Extents become DIRTY, joining the dirty list's tail (R124). -/
def State.makeDirty (s : State) (xs : List Nat) : State := s.modStore fun st => { st with dirty := st.dirty ++ xs }

/-- Extents become BAD (R124). -/
def State.makeBad (s : State) (xs : List Nat) : State := s.modStore fun st => { st with bad := st.bad ++ xs }

/-- The extents of an image leave OWNED: the one at a failed position becomes BAD, the others DIRTY in extent-list order
(R130, R134, R137). -/
def State.releaseExtents (s : State) (r : Image) (failed : Option Nat) : State :=
  match failed.bind fun j => r.extents[j]? with
  | none => s.makeDirty r.extents
  | some x => (s.makeBad [x]).makeDirty (r.extents.filter (· != x))

/-- Frees a record: it leaves the directory, and the refused-image marks that name it are cleared (R38, R126). -/
def State.forget (s : State) (id : Nat) : State :=
  { s with
    store := { s.store with images := s.store.images.filter fun r => r.id != id }
    roster := s.roster.map fun o => o.map fun e => if e.refused = some id then { e with refused := none } else e }

/-- Frees a record with its extents (R135, R137). -/
def State.freeRecord (s : State) (r : Image) (failed : Option Nat) : State := (s.releaseExtents r failed).forget r.id

/-- The slot of a port whose CLOSE IMAGE of an image has ended is emptied (R165). -/
def State.endCloseOn (s : State) (p : Port) (id : Nat) : State :=
  if (s.port p).slot = some (.closeImage id) then s.emptySlot p else s

/-- The CLOSE IMAGE of an image has ended with its event (R165). -/
def State.endClose (s : State) (id : Nat) : State := ((s.endCloseOn .Y id).endCloseOn .V id).endCloseOn .S id

/-- Posts STORE_LOW when the free count has fallen from 64 or more to below 64 (R125). -/
def State.judgeLow (s : State) (before : Nat) : State :=
  if Config.storeLowMark ≤ before ∧ s.store.free.length < Config.storeLowMark then
    s.post (.storeLow s.store.free.length s.store.dirty.length s.store.bad.length)
  else s

/-- Takes `n` extents from the head of the free list (R127). -/
def State.takeExtents (s : State) (n : Nat) : State := s.modStore fun st => { st with free := st.free.drop n }

/-- The ports that have an image in RECEIVING are busy for OPEN IMAGE (R127). -/
def State.receivingOn (s : State) (p : Port) : Bool :=
  s.store.images.any fun r => r.state == .receiving && r.intake == some p

/-! ### Programs -/

/-- The program of an extent's identity fields (R129). -/
def identityProgram (r : Image) (position extent : Nat) : Program :=
  { image := r.id, position := position, extent := extent, kind := .identity, addr := pageAddr extent 0
    bytes := identityBytes r position, live := true }

/-- The program of a block (R123, R129). -/
def blockProgram (r : Image) (block extent : Nat) (data : List Byte) (t : Ticket) : Program :=
  { image := r.id, position := block / Config.blocksPerExtent, extent := extent, kind := .block block t
    addr := pageAddr extent (block % Config.blocksPerExtent + 1), bytes := data, live := true }

/-- The program of the close mark in an extent (R134). -/
def closeMarkProgram (r : Image) (extent : Nat) : Program :=
  { image := r.id, position := 0, extent := extent, kind := .closeMark, addr := pageAddr extent 0 + closeMarkAt
    bytes := closeMarkBytes r, live := true }

/-- The program of the drop mark in an extent (R136). -/
def dropMarkProgram (r : Image) (extent : Nat) : Program :=
  { image := r.id, position := 0, extent := extent, kind := .dropMark, addr := pageAddr extent 0 + dropMarkAt
    bytes := dropMarkBytes, live := true }

/-- Requests the close mark of an image and sets its mark-pending flag (R134). -/
def State.requestCloseMark (s : State) (r : Image) : State :=
  match r.extents[0]? with
  | none => s
  | some x => (s.modImage r.id fun r => { r with markPending := true }).requestProgram (closeMarkProgram r x)

/-- Requests the drop mark of an image and sets its mark-pending flag (R135, R136). -/
def State.requestDropMark (s : State) (r : Image) : State :=
  match r.extents[0]? with
  | none => s
  | some x => (s.modImage r.id fun r => { r with markPending := true }).requestProgram (dropMarkProgram r x)

/-- Sets the state of one block of a record. -/
def Image.setBlock (r : Image) (b : Nat) (st : BlockState) : Image := { r with blocks := r.blocks.set b st }

/-- Sets the tag state of one extent of a record. -/
def Image.setTag (r : Image) (j : Nat) (st : TagState) : Image := { r with tags := r.tags.set j st }

/-- Requests the programs of an accepted WRITE BLOCK: the identity fields first when the tag state is NONE (R129). -/
def State.requestBlock (s : State) (r : Image) (block extent : Nat) (data : List Byte) (t : Ticket) : State :=
  let j := block / Config.blocksPerExtent
  let u := s.modImage r.id fun r => r.setBlock block .writing
  match r.tags[j]? with
  | some .noTag =>
    ((u.modImage r.id fun r => r.setTag j .writing).requestProgram (identityProgram r j extent)).requestProgram
      (blockProgram r block extent data t)
  | _ => u.requestProgram (blockProgram r block extent data t)

/-- The WRITE BLOCK that waits for a program. -/
def Program.tickets (p : Program) : List Ticket :=
  match p.kind with
  | .block _ t => if p.live then [t] else []
  | .identity => []
  | .closeMark => []
  | .dropMark => []

/-- The WRITE BLOCKs that wait for an image's programs, the one in progress and the queued ones. -/
def State.waitingWrites (s : State) (id : Nat) : List Ticket :=
  let inProgress :=
    match s.eng.op with
    | some (.program p) => if p.image = id then p.tickets else []
    | _ => []
  inProgress ++ ((s.eng.programs.filter fun p => p.image == id).map Program.tickets).flatten

/-! ### Damage -/

/-- A record becomes DAMAGED, its intake port absent (R130, R133, R134). -/
def Image.damaged (r : Image) : Image := { r with state := .damaged, intake := none, markPending := false }

/-- An intake program of an image has failed, or was abandoned in progress (R130, R131). -/
def State.damage (s : State) (p : Program) (cause : StoreFaultCause) : State :=
  match s.image p.image with
  | none => s
  | some r =>
    let writes := p.tickets ++ s.waitingWrites r.id
    let t := (s.releaseExtents r (some p.position)).modImage r.id Image.damaged
    ((t.withdrawPrograms r.id).finishAll writes .state).post (.storeFault p.extent cause (some r.id))

/-! ### Close check and marks -/

/-- A close ends without the image being stored (R133, R134): the record is DAMAGED, its extents leave OWNED,
CLOSE_FAILED is posted and the long order ends. -/
def State.closeFailed (s : State) (r : Image) (cause : CloseFailCause) (failed : Option Nat) : State :=
  (((s.releaseExtents r failed).modImage r.id Image.damaged).post (.closeFailed r.id cause)).endClose r.id

/-- A record dropped in CHECKING is freed (R135): CLOSE_FAILED with cause DROPPED is posted, the long order ends, and
the DROP IMAGEs that wait are DONE. -/
def State.freeDropped (s : State) (r : Image) (failed : Option Nat) : State :=
  (((s.freeRecord r failed).post (.closeFailed r.id .dropped)).endClose r.id).finishAll r.droppers .done

/-- The close mark is written (R134): STORED, CLOSE_DONE, and resolution for all units. Under a pending drop the drop
mark follows it (R135). -/
def State.closeMarkWritten (s : State) (r : Image) : State :=
  if r.dropped then s.requestDropMark r
  else
    (((s.modImage r.id fun r => { r with state := .stored, intake := none, markPending := false }).post
      (.closeDone r.id)).endClose r.id).resolveAll

/-- The close mark's program has failed (R134); under a pending drop the record is freed (R135; log entry 19). -/
def State.closeMarkFailed (s : State) (r : Image) (extent : Nat) : State :=
  if r.dropped then (s.freeDropped r (some 0)).post (.storeFault extent .program (some r.id))
  else
    ((s.closeFailed r .markFailed (some 0)).modImage r.id fun r => { r with markFailed := true }).post
      (.storeFault extent .program (some r.id))

/-- The close mark's program was abandoned by HALTED (R134); under a pending drop the record is freed (log entry 19). -/
def State.closeMarkAbandoned (s : State) (r : Image) : State :=
  if r.dropped then s.freeDropped r none else s.closeFailed r .abandoned none

/-- The drop mark's program has ended, written or abandoned (R135 to R137): the flag is cleared and the DROP IMAGEs
that wait are DONE; a record dropped in CHECKING is freed. -/
def State.dropMarkEnded (s : State) (r : Image) : State :=
  if r.state = .retiring then
    (s.modImage r.id fun r => { r with markPending := false, droppers := [] }).finishAll r.droppers .done
  else s.freeDropped r none

/-- The drop mark's program has failed (R135, R137). -/
def State.dropMarkFailed (s : State) (r : Image) (extent : Nat) : State :=
  if r.state = .retiring then
    ((s.modImage r.id fun r => { r with markPending := false, markFailed := true, droppers := [] }).post
      (.storeFault extent .program (some r.id))).finishAll r.droppers .done
  else (s.post (.storeFault extent .program (some r.id))).freeDropped r (some 0)

/-- Does something with the record a program is for, while the store wants the program's outcome. -/
def State.forProgram (s : State) (p : Program) (f : State → Image → State) : State :=
  if p.live then
    match s.image p.image with
    | none => s
    | some r => f s r
  else s

/-! ### Retiring records -/

/-- A RETIRING record whose job count is 0 and whose mark is no longer pending (R137). Of several the first in the
directory's order goes first (the model's choice, log entry 42). -/
def State.retired (s : State) : Option Image :=
  s.store.images.find? fun r => r.state == .retiring && r.jobCount == 0 && !r.markPending

/-- Frees one RETIRING record whose time has come, and resolves all units (R137). -/
def State.freeRetired1 (s : State) : State :=
  match s.retired with
  | none => s
  | some r => (s.freeRecord r (if r.markFailed then some 0 else none)).resolveAll

/-- Frees the RETIRING records whose time has come, at most one for each record (R137). -/
def State.freeRetired (s : State) : State := Nat.repeat State.freeRetired1 Config.maxImages s

end Sys2Proof.Machine
end

