-- ==== Sys2Proof/Machine/SettingsOps.lean ====
section
/-!
DEFINITION. The Settings Unit's operations (chapter 11): applying a set of settings (R174), ending a save or a reload
(R175, R176), and the start-up scan's rebuilding of the store (R139, R140).
-/

namespace Sys2Proof.Machine

open Sys2Proof

/-! ### Applying a set -/

/-- The 16 profiles of a set, clamped as SET PROFILE clamps them (R173, R174). -/
def clampProfiles (old : List Profile) (given : List ProfileArgs) : List Profile :=
  (List.range 16).map fun i =>
    match given[i]? with
    | none => (old[i]?).getD defaultProfile
    | some a => clampProfile i ((old[i]?).getD defaultProfile) a

/-- Step 1 of R174: both lines' settings and the guard, clamped, take effect. All of line A's changes come before line B's
(the model's choice, log entry 43). -/
def State.applyLines (s : State) (x : SettingsSet) : State :=
  ((s.applyLine .A (clampLine x.lineA)).applyLine .B (clampLine x.lineB)).applyGuard (clampGuard x.guardTime)

/-- Step 2 of R174: the profiles, and the lookup for every entry. -/
def State.applyProfiles (s : State) (x : SettingsSet) : State :=
  ({ s with profiles := clampProfiles s.profiles x.profiles }).lookupAll none

/-- Steps 3 and 4 of R174: the plan, the pin tables, and each entry's pins (R28). -/
def State.applyPlan (s : State) (x : SettingsSet) : State :=
  { s with
    rules := x.rules, yardPins := x.yardPins, servicePins := x.servicePins
    roster := s.roster.map fun o => o.map fun e =>
      { e with yardPin := pinFor x.yardPins e.serial, servicePin := pinFor x.servicePins e.serial } }

/-- An entry on the loaded held-serial list becomes HELD, unless it is already (R2). -/
def State.holdLoaded (s : State) (slot : Nat) : State :=
  match s.entry slot with
  | none => s
  | some e => if e.serial ∈ s.heldSerials ∧ e.state ≠ .held then s.becomeHeld slot false else s

/-- Step 5 of R174: the held-serial list. The entries are taken by ascending slot, so that UNIT_HELD's qualifier keeps the
highest (the model's choice, log entry 39). -/
def State.applyHeld (s : State) (x : SettingsSet) : State :=
  (List.range Config.slots).foldl State.holdLoaded { s with heldSerials := x.heldSerials }

/-- A set is applied, in the steps of R174. -/
def State.applySettings (s : State) (x : SettingsSet) : State :=
  ((((s.applyLines x).applyProfiles x).applyPlan x).applyHeld x).resolveAll

/-- The set a settings read gives: the valid record's contents, or the factory defaults (R174). -/
def State.loadedSet (s : State) : SettingsSet := (readRecord s.storedRecord).getD factorySet

/-- The settings read found no valid record (R176, R177). -/
def State.loadFails (s : State) : Bool := (readRecord s.storedRecord).isNone

/-! ### Operations -/

/-- The settings operation is over. -/
def State.settingsIdle (s : State) : State := { s with settings := { s.settings with op := .idle } }

/-- A save has ended: SAVE_DONE is posted and the port's slot empties (R175). -/
def State.saveEnded (s : State) (failed : Bool) : State :=
  match s.settings.op with
  | .saving p => (s.settingsIdle.post (.saveDone .save failed false)).emptySlot p
  | _ => s

/-- A class-4 request (section 8.3). -/
def State.requestClass4 (s : State) (op : FlashOp) : State := s.modEng fun f => { f with class4 := some op }

/-- The page of the record to program (R175). -/
def State.snapshotPage (s : State) (page : Nat) : List Byte :=
  (s.settings.snapshot.drop (page * Config.pageBytes)).take Config.pageBytes

/-- A reload's read has completed: the set is applied and SAVE_DONE posted (R176). -/
def State.reloadEnded (s : State) (p : Port) : State :=
  ((s.applySettings s.loadedSet).settingsIdle.post (.saveDone .reload false s.loadFails)).emptySlot p

/-- The start-up load's read has completed: the set is applied, and the scan's first tag read is requested
(R177, steps 2 and 3). -/
def State.loadEnded (s : State) : State :=
  let t := (s.applySettings s.loadedSet).settingsIdle
  ({ t with startup := { t.startup with stage := .scan, loadFailed := s.loadFails } }).requestClass4 (.tagRead 1)

/-! ### The start-up scan -/

/-- A well-formed tag with the extent it was read from. -/
abbrev FoundTag := Nat × TagInfo

/-- The well-formed tags of a scan, in ascending extent number (R139). -/
def wellFormedTags (xs : List (Nat × TagClass)) : List FoundTag :=
  xs.filterMap fun x =>
    match x.2 with
    | .wellFormed t => some (x.1, t)
    | .erased => none
    | .broken => none

/-- The extents of a scan whose tags read erased (R140). -/
def erasedExtents (xs : List (Nat × TagClass)) : List Nat := (xs.filter fun x => x.2 == .erased).map Prod.fst

/-- Puts an id at its place in an ascending list, once. -/
def insertId (id : Nat) : List Nat → List Nat
  | [] => [id]
  | x :: xs => if id < x then id :: x :: xs else if id = x then x :: xs else x :: insertId id xs

/-- The image ids of the tags, ascending. -/
def groupIds (ts : List FoundTag) : List Nat := ts.foldl (fun ids t => insertId t.2.id ids) []

/-- The tags of a group (R139). -/
def groupOf (ts : List FoundTag) (id : Nat) : List FoundTag := ts.filter fun t => t.2.id == id

/-- The tags of a group at a position. -/
def tagsAt (g : List FoundTag) (j : Nat) : List FoundTag := g.filter fun t => t.2.position == j

/-- The group has a valid close mark at position 0 (R140). -/
def groupClosed (g : List FoundTag) : Bool := (tagsAt g 0).any fun t => t.2.close.isSome

/-- The group is accepted (R140): its tags agree and have their positions below the total extents (R139), every position is
present exactly once, and the tag at position 0 carries a valid close mark and no drop mark. -/
def groupAccepted (g : List FoundTag) : Bool :=
  match g with
  | [] => false
  | (_, t) :: _ =>
    g.all (fun u => u.2.version == t.version && u.2.length == t.length && u.2.total == t.total
        && decide (u.2.position < t.total))
      && (List.range t.total).all (fun j => (tagsAt g j).length == 1)
      && groupClosed g && !(tagsAt g 0).any fun u => u.2.drop

/-- The extents of an accepted group, in position order. -/
def groupExtents (g : List FoundTag) (total : Nat) : List Nat :=
  ((List.range total).map fun j => (tagsAt g j).map Prod.fst).flatten

/-- The record an accepted group is rebuilt as (R140). -/
def rebuild (g : List FoundTag) : Option Image :=
  match (tagsAt g 0).head? with
  | none => none
  | some (_, t) =>
    t.close.map fun c =>
      { id := t.id, state := .stored, intake := none, cls := c.2.1, hwMin := c.2.2.1, hwMax := c.2.2.2,
        version := t.version, length := t.length, crc := c.1, blocks := List.replicate t.length .received,
        received := t.length, extents := groupExtents g t.total, tags := List.replicate t.total .written,
        markPending := false, markFailed := false, jobCount := 0, checkNext := 0, checkCrc := crc32Start,
        dropped := false, droppers := [] }

/-- The records the scan rebuilds: the accepted groups in ascending image id, the first 24 (R140). -/
def rebuiltImages (xs : List (Nat × TagClass)) : List Image :=
  let ts := wellFormedTags xs
  (((groupIds ts).filter fun id => groupAccepted (groupOf ts id)).take Config.maxImages).filterMap fun id =>
    rebuild (groupOf ts id)

/-- Some group lacks a valid close mark at position 0 (R140). -/
def intakeLost (xs : List (Nat × TagClass)) : Bool :=
  let ts := wellFormedTags xs
  (groupIds ts).any fun id => !groupClosed (groupOf ts id)

/-- The store the scan leaves (R140): erased extents FREE, those of rebuilt images OWNED, every other DIRTY. -/
def rebuiltStore (xs : List (Nat × TagClass)) : Store :=
  let images := rebuiltImages xs
  let owned := (images.map Image.extents).flatten
  let free := erasedExtents xs
  { images := images, free := free
    dirty := (xs.map Prod.fst).filter fun x => !free.contains x && !owned.contains x
    bad := [] }

/-- The start-up full sweep starts on a line that is ACTIVE (R177, step 4). -/
def State.startUpSweep (s : State) (l : Line) : State :=
  if (s.line l).state = .active then s.startFull l else s

/-- The end of the scan (R140, R177): the store is rebuilt, INTAKE_LOST noted, STORE_LOW judged, and the start-up full
sweeps begin. -/
def State.scanEnded (s : State) : State :=
  let t := { s with
    store := rebuiltStore s.startup.scanned
    startup := { stage := .sweeps, intakeLost := intakeLost s.startup.scanned, loadFailed := s.startup.loadFailed,
                 scanned := [] } }
  ((t.judgeLow Config.storeLowMark).startUpSweep .A).startUpSweep .B

/-- A tag of the scan has been read (R139): it is classed, and the next read requested, or the scan ends. -/
def State.tagScanned (s : State) (extent : Nat) : State :=
  let page := flashReadRange s.flash (pageAddr extent 0) Config.pageBytes
  let t := { s with startup := { s.startup with scanned := s.startup.scanned ++ [(extent, classifyTag page)] } }
  if extent + 1 < Config.extents then t.requestClass4 (.tagRead (extent + 1)) else t.scanEnded

/-- The start-up phase ends when no start-up full sweep is left: RUNNING, and STARTED is posted (R177, step 5). -/
def State.checkStarted (s : State) : State :=
  if s.startup.stage = .sweeps ∧ s.lineA.startSweep = false ∧ s.lineB.startSweep = false then
    ({ s with startup := { s.startup with stage := .running } }).post
      (.started s.startup.intakeLost s.startup.loadFailed)
  else s

end Sys2Proof.Machine
end

