-- ==== Sys2Proof/Machine/VehicleOps.lean ====
section
/-!
DEFINITION. The Vehicle Interface (chapter 9): entering HALTED (R157) with the Flash Engine's abandonment (R131, R150),
leaving it (R158), a change of mode (R153, R155, R76), the warning filter (R156); the one-second tick (R96, R110, R167);
the flash operation limit (R148); and what settles at the end of a step.
-/

namespace Sys2Proof.Machine

open Sys2Proof

/-! ### Abandonment in the Flash Engine -/

/-- An operation in progress, or a suspended erase, ends ABANDONED and is handed to its requester (R150, Table 8.2). -/
def State.abandonOp (s : State) : FlashOp → State
  | .program p =>
    match p.kind with
    | .block _ _ => s.forProgram p fun t _ => t.damage p .pageAbandoned
    | .identity => s.forProgram p fun t _ => t.damage p .tagAbandoned
    | .closeMark => s.forProgram p State.closeMarkAbandoned
    | .dropMark => s.forProgram p State.dropMarkEnded
  | .settingsErase => s.saveEnded true
  | .settingsPage _ => s.saveEnded true
  | .lineRead _ _ _ => s
  | .checkRead _ _ => s
  | .settingsRead => s
  | .tagRead _ => s
  | .erase _ => s

/-- Abandons an optional operation: what it was writing is cut off, and its requester is told (R150). -/
def State.abandonOpt (s : State) : Option FlashOp → State
  | none => s
  | some op => (s.cutOff op).abandonOp op

/-- A waiting class-4 request is handed back ABANDONED (R150, step 3): a save leaves no valid record (R175). -/
def State.handBack4 (s : State) (op : FlashOp) : State :=
  (if op.recordCount.isSome then s.loseRecord else s).abandonOp op

/-- A program that had not started is handed back ABANDONED (R131): its block returns to MISSING and its WRITE BLOCK
completes with HALTED, its tag state returns to NONE, and a mark is taken as abandoned. -/
def State.handBack (s : State) (p : Program) : State :=
  match p.kind with
  | .block b t => (s.modImage p.image fun r => r.setBlock b .missing).finish t .halted .empty
  | .identity => s.modImage p.image fun r => r.setTag p.position .noTag
  | .closeMark => s.forProgram p State.closeMarkAbandoned
  | .dropMark => s.forProgram p State.dropMarkEnded

/-- A read that HALTED keeps (R150, step 3): a tag read of the scan, or the settings read of the start-up load. -/
def State.keptRead (s : State) : FlashOp → Bool
  | .tagRead _ => true
  | .settingsRead => s.settings.op == .loading
  | .lineRead _ _ _ => false
  | .program _ => false
  | .checkRead _ _ => false
  | .settingsErase => false
  | .settingsPage _ => false
  | .erase _ => false

/-- The class-4 request that stands after HALTED: a kept read, in progress or waiting. -/
def State.keptClass4 (s : State) : Option FlashOp :=
  match s.eng.op.filter s.keptRead with
  | some op => some op
  | none => s.eng.class4.filter s.keptRead

/-- The settings operation that waits in class 4 and is not kept. -/
def State.lostClass4 (s : State) : Option FlashOp := s.eng.class4.filter fun op => !s.keptRead op

/-- HALTED reaches the Flash Engine (R150): the device reset command, with its recovery hold; the operation in progress
and the suspended erase end ABANDONED; then the waiting requests are handed back in class order, kept reads excepted. -/
def State.haltFlash (s : State) : State :=
  let f := s.eng
  let t := s.modEng fun f =>
    { f with op := none, suspended := none, suspCount := 0, suspending := false, hold := true, readA := none,
             readB := none, checks := [], class4 := s.keptClass4, class5 := none }
  let t := (t.abandonOpt f.op).abandonOpt f.suspended
  let waiting := t.eng.programs
  let t := waiting.foldl State.handBack (t.modEng fun f => { f with programs := [] })
  match s.lostClass4 with
  | none => t
  | some op => t.handBack4 op

/-! ### The mode -/

/-- Enters HALTED from another mode (R157): the mode, the lines, the jobs, the flash. -/
def State.haltEntry (s : State) (cause : HaltCause) : State :=
  let t := { s with veh := { s.veh with mode := .halted, hold := none, cause := some cause } }
  ((((((t.abandon .A).abandon .B).parkLine .A).parkLine .B).haltFlash).wakeBoth)

/-- Makes the mode HALTED; already HALTED, nothing changes (R157). -/
def State.halt (s : State) (cause : HaltCause) : State := if s.halted then s else s.haltEntry cause

/-- The hold a mode is entered with (R153). -/
def holdOf : Mode → Option Nat
  | .yard => some Config.modeHoldTicks
  | .quiet => some Config.modeHoldTicks
  | .inService => none
  | .halted => none

/-- A full sweep that a line reset made due in HALTED starts (R88, R158). -/
def State.startDueSweep (s : State) (l : Line) : State :=
  if (s.line l).fullDue ∧ (s.line l).state = .active ∧ s.linesRun then s.startFull l else s

/-- The exchange is a SWAP whose frame is not wholly sent (R76). -/
def swapUnsent (x : Exchange) : Bool :=
  match x.purpose, x.phase with
  | .swap _, .awaiting => false
  | .swap _, _ => true
  | _, _ => false

/-- The mode leaves QUIET: a SWAP whose frame is not wholly sent is abandoned on each line (R69, R76). -/
def State.cutSwaps (s : State) : State := (s.abandonIf .A swapUnsent).abandonIf .B swapUnsent

/-- The mode becomes IN_SERVICE from YARD or QUIET: the open jobs of both lines park at once, with their LOAD, burst and
CHECK exchanges (R155). -/
def State.leaveYard (s : State) : State := (s.parkLine .A).parkLine .B

/-- The mode becomes `m`, other than HALTED (R153, R155, R158). -/
def State.changeMode (s : State) (m : Mode) : State :=
  let old := s.veh.mode
  let t := { s with veh := { s.veh with mode := m, hold := holdOf m, cause := none } }
  if old = m then t
  else
    let t := if old = .quiet then t.cutSwaps else t
    let t := if m = .inService ∧ (old = .yard ∨ old = .quiet) then t.leaveYard else t
    let t := if old = .halted then (t.startDueSweep .A).startDueSweep .B else t
    t.wakeBoth

/-- The mode hold expires (R154). -/
def State.expireMode (s : State) : State := (s.changeMode .inService).post (.modeExpired s.veh.mode)

/-- The level and run count of the warning filter. -/
def State.setFilter (s : State) (asserted : Bool) (run : Nat) : State :=
  { s with veh := { s.veh with asserted := asserted, run := run } }

/-- One sample of PWRWARN_N (R156): a sample that agrees with the level clears the run, the third in a row that disagrees
turns the level, and ASSERTED makes the mode HALTED with cause PIN. -/
def State.sampleWarning (s : State) (active : Bool) : State :=
  if active = s.veh.asserted then s.setFilter s.veh.asserted 0
  else if s.veh.run < 2 then s.setFilter s.veh.asserted (s.veh.run + 1)
  else if active then (s.setFilter true 0).halt .pin
  else s.setFilter false 0

/-! ### The one-second tick -/

/-- The countdown at a tick (R96). -/
def TimeBudget.ticked (t : TimeBudget) : TimeBudget :=
  match t.upcoming with
  | some v => { t with countdown := v, upcoming := none }
  | none => { t with countdown := t.countdown.map fun c => c - 1 }

/-- The depot time at a tick, wrapping from 4,294,967,295 to 0 (R167). -/
def TimeBudget.depotTicked (t : TimeBudget) : TimeBudget :=
  { t with depotTime := (t.depotTime + 1) % 4294967296 }

/-- A running boot timer at a tick (R110); a timer at 0 has expired and waits for its expiry to be handled. -/
def State.tickEntry (s : State) (e : Entry) : Entry :=
  if s.bootPaused e then e
  else { e with bootTimer := e.bootTimer.map fun b => { b with seconds := b.seconds - 1 } }

/-- The one-second tick (R96, R110, R167): the clock stands at the tick, the next falls a second later. -/
def State.tick (s : State) : State :=
  let s := s.advanceTo s.time.nextTick
  let b := s.time.ticked.depotTicked
  let t := { s with
    time := { b with nextTick := s.time.nextTick + Config.ticksPerSecond }
    roster := s.roster.map (Option.map s.tickEntry) }
  (if b.countdown ≠ s.time.countdown then t.wakeBoth else t).judgeWindow

/-! ### The flash operation limit -/

/-- An operation that is not a mark, an intake program, a settings write or an erase has no limit (R148). -/
def FlashOp.limited (op : FlashOp) : Bool := op.isErase || op.isProgram

/-- A program or an erase of the store or of a save has FAILED (R130, R134, R137, R138, R175). -/
def State.opFailed (s : State) : FlashOp → State
  | .program p =>
    match p.kind with
    | .block _ _ => s.forProgram p fun t _ => t.damage p .program
    | .identity => s.forProgram p fun t _ => t.damage p .program
    | .closeMark => s.forProgram p fun t r => t.closeMarkFailed r p.extent
    | .dropMark => s.forProgram p fun t r => t.dropMarkFailed r p.extent
  | .erase x =>
    (s.modStore fun st => { st with dirty := st.dirty.filter (· != x), bad := st.bad ++ [x] }).post
      (.storeFault x .erase none)
  | .settingsErase => s.saveEnded true
  | .settingsPage _ => s.saveEnded true
  | .lineRead _ _ _ => s
  | .checkRead _ _ => s
  | .settingsRead => s
  | .tagRead _ => s

/-- The operation in progress has outlasted its limit (R148): FAILED; the device reset command and its recovery hold; a
suspended erase ends ABANDONED. -/
def State.limitReached (s : State) (op : FlashOp) : State :=
  let held := s.eng.suspended
  let t := ((s.spoil op).endOp).modEng fun f => { f with suspended := none, suspCount := 0, hold := true }
  (t.opFailed op).abandonOpt held

/-! ### What settles at the end of a step -/

/-- The store asks for an erase of the dirty list's head (R138). -/
def State.eraseWanted (s : State) : Option Nat :=
  let busy := (s.eng.op.any fun o => match o with
    | .erase _ => true
    | _ => false) || (s.eng.suspended.any fun o => match o with
    | .erase _ => true
    | _ => false) || s.eng.class5.isSome
  if busy || s.halted then none else s.store.dirty.head?

/-- Requests the background erase (R138). -/
def State.wantErase (s : State) : State :=
  match s.eraseWanted with
  | none => s
  | some x => s.modEng fun f => { f with class5 := some x }

/-- An image's close-check read is waiting or in progress. -/
def FlashEngine.checking (f : FlashEngine) (id : Nat) : Bool :=
  (f.checks.any fun c => c.imageId == id)
    || f.op.any fun o => match o with
      | .checkRead c live => live && c.imageId == id
      | _ => false

/-- A record's close check wants its next block read (R133). -/
def State.checkWanted (s : State) (r : Image) : Bool :=
  r.state == .checking && !r.markPending && !s.eng.checking r.id

/-- Requests the close-check reads that are wanted (R133). Reads wanted in one step join the FIFO in the order of the
directory (the model's choice, log entry 37). -/
def State.wantChecks (s : State) : State :=
  s.modEng fun f =>
    { f with checks := f.checks ++ ((s.store.images.filter s.checkWanted).map fun r =>
        ({ imageId := r.id, block := r.checkNext } : CheckRead)) }

/-- A reload's read is wanted, at first and again after HALTED (R176). -/
def State.wantReload (s : State) : State :=
  match s.settings.op with
  | .reloading _ =>
    if s.eng.op = some .settingsRead ∨ s.eng.class4 = some .settingsRead then s else s.requestClass4 .settingsRead
  | _ => s

/-- The requests of the store and the Settings Unit that stand open; none is made in HALTED (R131, R133, R138, R176). -/
def State.wantFlash (s : State) : State := if s.halted then s else (s.wantErase.wantChecks).wantReload

/-- The flash side of a step's end: requests, then the arbiter's choice (log entry 9). -/
def State.settleFlash (s : State) : State := s.wantFlash.flashChoose

/-- The end of a step (log entries 8 and 9): RETIRING records are freed (R137), jobs created (R44), sweeps tidied (R12)
and completed (R17, R177), and the arbiters of line A, line B and the flash choose (R74, R144). -/
def State.settle (s : State) : State :=
  let t := (((s.freeRetired.createJobs).tidySweep .A).tidySweep .B)
  let t := (t.sweepsDone).checkStarted
  let t := (t.arbitrate .A).arbitrate .B
  t.settleFlash

end Sys2Proof.Machine
end

