-- ==== Sys2Proof/Machine/FlashEvents.lean ====
section
/-!
DEFINITION. What the flash device reports: operations completed or failed (Table 8.1, R148), an erase suspended (R146), an
operation outlasting its limit (R148) and the end of the recovery hold (R143). A report that no operation in progress
matches changes nothing (log entry 6); an operation outside the 8 MiB of the flash faults (log entry 29).
-/

namespace Sys2Proof.Machine

open Sys2Proof

/-- A report of the flash device: it faults when the operation in progress lies outside the flash (section 7.1). -/
def State.reported (s : State) (t : State) : Host.Outcome State Fault Refusal :=
  if s.opInside then .next t else .fault .outsideFlash

/-! ### Line reads -/

/-- The exchange of a line waits for its burst to be read (R70). -/
def State.readAwaited (s : State) (l : Line) : Bool := (s.line l).exchange.any fun x => x.phase == .reading

/-- The blocks of a live line read enter the line buffer, and the burst's first frame is sent (R70, R149). -/
def State.deliverRead (s : State) (l : Line) (r : LineRead) : State :=
  if s.readAwaited l then
    (s.modLine l fun e =>
      { e with buffer := some { tag := r.tag, first := r.first, count := r.count, complete := true,
                                blocks := s.readBlocks r } }).startAttempt l
  else s

/-- A line read completes: live, it serves its line; discarded, its data is dropped (R149). -/
def State.lineReadDone (s : State) : State :=
  match s.eng.op with
  | some (.lineRead l r live) => ((if live then s.endOp.deliverRead l r else s.endOp)).settle
  | _ => s

/-- The meaning of LINE_READ_DONE (R149). -/
def execLineReadDone (s : State) : Host.Outcome State Fault Refusal := s.reported s.lineReadDone

/-! ### Programs -/

/-- The flash takes what a program wrote, or free contents when it failed, and the operation ends. -/
def State.programEnded (s : State) (p : Program) (ok : Bool) : State :=
  (s.wrote (.program p) ok fun m => flashWriteAll m p.addr p.bytes).endOp

/-- A block is programmed (R129): RECEIVED, the count one higher, and its WRITE BLOCK DONE. -/
def State.blockWritten (s : State) (r : Image) (b : Nat) (t : Ticket) : State :=
  (s.modImage r.id fun r => { r.setBlock b .received with received := r.received + 1 }).finish t .done
    (.count (r.received + 1))

/-- A page program ends (R129, R130). -/
def State.pageDone (s : State) (ok : Bool) : State :=
  match s.runningProgram ProgramKind.isBlock with
  | none => s
  | some p =>
    let t := s.programEnded p ok
    (if ok then
      match p.kind with
      | .block b tk => t.forProgram p fun t r => t.blockWritten r b tk
      | _ => t
    else t.opFailed (.program p)).settle

/-- The meaning of PAGE_PROGRAM_DONE (R129, R130). -/
def execPageProgramDone (ok : Bool) (s : State) : Host.Outcome State Fault Refusal := s.reported (s.pageDone ok)

/-- An identity tag program ends (R129, R130). -/
def State.tagDone (s : State) (ok : Bool) : State :=
  match s.runningProgram ProgramKind.isIdentity with
  | none => s
  | some p =>
    let t := s.programEnded p ok
    (if ok then t.forProgram p fun t r => t.modImage r.id fun r => r.setTag p.position .written
      else t.opFailed (.program p)).settle

/-- The meaning of TAG_PROGRAM_DONE (R129, R130). -/
def execTagProgramDone (ok : Bool) (s : State) : Host.Outcome State Fault Refusal := s.reported (s.tagDone ok)

/-- The close mark's program ends (R134, R135). -/
def State.closeMarkDone (s : State) (ok : Bool) : State :=
  match s.runningProgram ProgramKind.isCloseMark with
  | none => s
  | some p =>
    let t := s.programEnded p ok
    (if ok then t.forProgram p State.closeMarkWritten else t.opFailed (.program p)).settle

/-- The meaning of CLOSE_MARK_PROGRAM_DONE (R134). -/
def execCloseMarkProgramDone (ok : Bool) (s : State) : Host.Outcome State Fault Refusal :=
  s.reported (s.closeMarkDone ok)

/-- The drop mark's program ends (R135 to R137). -/
def State.dropMarkDone (s : State) (ok : Bool) : State :=
  match s.runningProgram ProgramKind.isDropMark with
  | none => s
  | some p =>
    let t := s.programEnded p ok
    (if ok then t.forProgram p State.dropMarkEnded else t.opFailed (.program p)).settle

/-- The meaning of DROP_MARK_PROGRAM_DONE (R137). -/
def execDropMarkProgramDone (ok : Bool) (s : State) : Host.Outcome State Fault Refusal :=
  s.reported (s.dropMarkDone ok)

/-! ### The close check -/

/-- The close check has folded its last block in (R133, R134): a mismatch damages the image, a match requests the close
mark. -/
def State.checkCompared (s : State) (r : Image) (computed : Word32) : State :=
  if computed = r.crc then s.requestCloseMark r else s.closeFailed r (.mismatch computed) none

/-- A block read by the close check is folded into the running CRC-32 (R133). -/
def State.checkFolded (s : State) (r : Image) (block : Nat) : State :=
  let c := crc32Fold r.checkCrc (s.blockBytes r block)
  let r' := { r with checkNext := block + 1, checkCrc := c }
  let t := s.modImage r.id fun x => { x with checkNext := block + 1, checkCrc := c }
  if block + 1 < r.length then t else t.checkCompared r' (crc32Finish c)

/-- A close-check read completes (R133, R135). -/
def State.checkDone (s : State) : State :=
  match s.eng.op with
  | some (.checkRead c live) =>
    let t := s.endOp
    (match live, t.image c.imageId with
      | true, some r => t.checkFolded r c.block
      | _, _ => t).settle
  | _ => s

/-- The meaning of CLOSE_CHECK_READ_DONE (R133). -/
def execCloseCheckReadDone (s : State) : Host.Outcome State Fault Refusal := s.reported s.checkDone

/-! ### Erases -/

/-- An extent erased in the background becomes FREE at the tail of the free list (R138). -/
def State.extentErased (s : State) (x : Nat) : State :=
  s.modStore fun st => { st with dirty := st.dirty.filter (· != x), free := st.free ++ [x] }

/-- A background erase ends (R138). -/
def State.eraseDone (s : State) (ok : Bool) : State :=
  match s.eng.op with
  | some (.erase x) =>
    let t := (s.wrote (.erase x) ok fun m => flashErase m (pageAddr x 0) Config.extentBytes).endOp
    (if ok then t.extentErased x else t.opFailed (.erase x)).settle
  | _ => s

/-- The meaning of BACKGROUND_ERASE_DONE (R138). -/
def execBackgroundEraseDone (ok : Bool) (s : State) : Host.Outcome State Fault Refusal := s.reported (s.eraseDone ok)

/-- The device reports an erase suspended (R146): the count rises, and the waiting request is served. -/
def State.eraseSuspends (s : State) : State :=
  if s.eng.suspending && s.eng.op.any FlashOp.isErase then (s.modEng FlashEngine.eraseStopped).settleFlash else s

/-- The meaning of ERASE_SUSPENDED (R146). -/
def execEraseSuspended (s : State) : Host.Outcome State Fault Refusal := .next s.eraseSuspends

/-! ### Settings -/

/-- The settings erase ends (R175). -/
def State.settingsErased (s : State) (ok : Bool) : State :=
  match s.eng.op with
  | some .settingsErase =>
    let t := (s.wrote .settingsErase ok fun m => flashErase m (pageAddr 0 0) Config.extentBytes).endOp
    (if ok then t.requestClass4 (.settingsPage 0) else t.opFailed .settingsErase).settleFlash
  | _ => s

/-- The meaning of SETTINGS_ERASE_DONE (R175). -/
def execSettingsEraseDone (ok : Bool) (s : State) : Host.Outcome State Fault Refusal := s.reported (s.settingsErased ok)

/-- A settings page program ends (R175): the next page is requested, up to page 3, or the save is done. -/
def State.settingsPaged (s : State) (ok : Bool) : State :=
  match s.eng.op with
  | some (.settingsPage n) =>
    let t := (s.wrote (.settingsPage n) ok fun m => flashWriteAll m (pageAddr 0 n) (s.snapshotPage n)).endOp
    (if ok then (if n < 3 then t.requestClass4 (.settingsPage (n + 1)) else t.saveEnded false)
      else t.opFailed (.settingsPage n)).settleFlash
  | _ => s

/-- The meaning of SETTINGS_PAGE_PROGRAM_DONE (R175). -/
def execSettingsPageProgramDone (ok : Bool) (s : State) : Host.Outcome State Fault Refusal :=
  s.reported (s.settingsPaged ok)

/-- The settings read completes, for the start-up load or a reload (R176, R177). -/
def State.settingsRead (s : State) : State :=
  match s.eng.op with
  | some .settingsRead =>
    let t := s.endOp
    (match t.settings.op with
      | .loading => t.loadEnded
      | .reloading p => t.reloadEnded p
      | .saving _ => t
      | .idle => t).settle
  | _ => s

/-- The meaning of SETTINGS_READ_DONE (R176, R177). -/
def execSettingsReadDone (s : State) : Host.Outcome State Fault Refusal := s.reported s.settingsRead

/-! ### The start-up scan -/

/-- A tag read of the start-up scan completes (R139). -/
def State.tagReadDone (s : State) : State :=
  match s.eng.op with
  | some (.tagRead x) => (s.endOp.tagScanned x).settle
  | _ => s

/-- The meaning of TAG_READ_DONE (R139). -/
def execTagReadDone (s : State) : Host.Outcome State Fault Refusal := s.reported s.tagReadDone

/-! ### Limits and the recovery hold -/

/-- A program passes 10 ms, or an erase 2000 ms (R148). -/
def State.opOutlasts (s : State) : State :=
  match s.eng.op with
  | none => s
  | some op => if op.limited then (s.limitReached op).settle else s

/-- The meaning of FLASH_OPERATION_LIMIT (R148). -/
def execFlashOperationLimit (s : State) : Host.Outcome State Fault Refusal := s.reported s.opOutlasts

/-- The recovery hold runs out (R143): the arbiter chooses; after a full reset the settings load begins (R177). -/
def State.holdEnds (s : State) : State :=
  if s.eng.hold then
    let t := s.modEng fun f => { f with hold := false }
    (if t.startup.stage = .deviceReset then
      ({ t with startup := { t.startup with stage := .load } }).requestClass4 .settingsRead
    else t).settleFlash
  else s

/-- The meaning of RECOVERY_HOLD_END (R143). -/
def execRecoveryHoldEnd (s : State) : Host.Outcome State Fault Refusal := .next s.holdEnds

end Sys2Proof.Machine
end

