-- ==== Sys2Proof/Machine/LineEvents.lean ====
section
/-!
DEFINITION. What happens on a cabin line: replies received (R9, R48 to R53, R67), bad replies and no reply (R66, R67),
the end of a frame (R66) and of the idle gap (R64).
-/

namespace Sys2Proof.Machine

open Sys2Proof

/-- The meaning of IDENT_RECEIVED (R9). -/
def execIdentReceived (l : Line) (i : Ident) (s : State) : Host.Outcome State Fault Refusal :=
  .next (s.receive l (.ident i)).settle

/-- The meaning of FILL_RECEIVED (R48). -/
def execFillReceived (l : Line) (f : Fill) (s : State) : Host.Outcome State Fault Refusal :=
  .next (s.receive l (.fill f)).settle

/-- The meaning of TAKEN_RECEIVED (R49, R51, R108, R120). -/
def execTakenReceived (l : Line) (t : Taken) (s : State) : Host.Outcome State Fault Refusal :=
  .next (s.receive l (.taken t)).settle

/-- The meaning of STATE_RECEIVED (R50 to R53). -/
def execStateReceived (l : Line) (u : UnitReport) (s : State) : Host.Outcome State Fault Refusal :=
  .next (s.receive l (.state u)).settle

/-- The meaning of BAD_REPLY (R67): the reception is judged by its bytes and its character checks. -/
def execBadReply (l : Line) (r : Reception) (s : State) : Host.Outcome State Fault Refusal :=
  .next (s.receiveRaw l r).settle

/-- The meaning of NO_REPLY (R66). -/
def execNoReply (l : Line) (s : State) : Host.Outcome State Fault Refusal := .next (s.timeOut l).settle

/-- The frame on a line's wire has been sent: another of its burst follows after the gap, or the reply wait starts
(R64, R66). -/
def State.frameSent (s : State) (l : Line) : State :=
  match (s.line l).exchange with
  | none => s
  | some x =>
    match x.phase with
    | .sending i =>
      s.modLine l fun e =>
        { e with
          quiet := false
          exchange := some { x with phase := if i + 1 < x.purpose.frames then .between (i + 1) else .awaiting } }
    | .reading => s
    | .gap => s
    | .between _ => s
    | .awaiting => s

/-- The meaning of FRAME_SENT (R66). -/
def execFrameSent (l : Line) (s : State) : Host.Outcome State Fault Refusal := .next (s.frameSent l)

/-- A line has been idle for 2 character times (R64). -/
def State.fallQuiet (s : State) (l : Line) : State := s.modLine l fun e => { e with quiet := true }

/-- The idle gap ends (R64): an attempt that waited starts, a SWAP's only if it is still allowed (R76), and the next BLOCK
frame of a burst goes out. -/
def State.gapEnded (s : State) (l : Line) : State :=
  match (s.line l).exchange with
  | none => s.fallQuiet l
  | some x =>
    match x.phase with
    | .gap => if s.swapBarred x then (s.fallQuiet l).abandon l else (s.fallQuiet l).startAttempt l
    | .between i =>
      s.modLine l fun e =>
        { e with
          exchange := some { x with phase := .sending i }
          stats := { e.stats with framesSent := bump e.stats.framesSent 1 } }
    | .reading => s.fallQuiet l
    | .awaiting => s.fallQuiet l
    | .sending _ => s

/-- The meaning of INTERFRAME_GAP_END (R64). -/
def execInterframeGapEnd (l : Line) (s : State) : Host.Outcome State Fault Refusal := .next (s.gapEnded l).settle

end Sys2Proof.Machine
end

