-- ==== Sys2Proof/Machine/Flags.lean ====
section
/-!
DEFINITION. The event flags as orders read and change them (R169): reading and clearing a port's flags, and replacing
its mask. Posting is in Ops.lean.
-/

namespace Sys2Proof.Machine

/-- A flag after READ EVENTS: one returned SET is CLEAR with its count at 0 (R169), and with no qualifier (the model's choice,
log entry 41). -/
def EventFlag.read (f : EventFlag) : EventFlag := if f.isSet then clearFlag else f

/-- A port's flags after READ EVENTS (R169). -/
def PortState.readFlags (q : PortState) : PortState := { q with flags := q.flags.map EventFlag.read }

/-- A port's mask after SET EVENT MASK (R169). -/
def PortState.withMask (q : PortState) (enables : List Nat) : PortState := { q with mask := enables.map flagSet }

end Sys2Proof.Machine
end

