-- ==== Sys2Proof/Machine/Orders.lean ====
section
/-!
DEFINITION. How an order is taken on a management port (R161 to R166): the permission of its port, the start-up phase,
HALTED, the long-order slot, and then the order's own checks and effect.
-/

namespace Sys2Proof.Machine

open Sys2Proof

/-- What R162 to R165 need to know of an order: the ports it is permitted on (Table 10.1), whether it is served on every
port during the start-up phase, whether it is answered HALTED while the mode is HALTED (R164), and whether it is a long
order (R165). -/
structure OrderRule where
  onY      : Bool
  onV      : Bool
  onS      : Bool
  anyPhase : Bool
  stopped  : Bool
  long     : Bool
  deriving DecidableEq, Repr

/-- The order is permitted on the port (R163). -/
def OrderRule.allows (r : OrderRule) : Port → Bool
  | .Y => r.onY
  | .V => r.onV
  | .S => r.onS

/-- OPEN IMAGE, WRITE BLOCK and DROP IMAGE (Table 10.1, R164). -/
def ruleIntake : OrderRule := ⟨true, false, true, false, true, false⟩
/-- CLOSE IMAGE, a long order (R165). -/
def ruleClose : OrderRule := ⟨true, false, true, false, true, true⟩
/-- The orders of the Yard and Service ports: LIST IMAGES, READ IMAGE, READ PLAN, PIN UNIT, UNPIN UNIT, READ LINE,
RESET LINE. -/
def ruleYS : OrderRule := ⟨true, false, true, false, false, false⟩
/-- The orders of the Yard port alone: SET PROFILE, SET RULE, REMOVE RULE, SET LINE, SET TIME. -/
def ruleY : OrderRule := ⟨true, false, false, false, false, false⟩
/-- RELEASE UNIT, of the Service port alone. -/
def ruleS : OrderRule := ⟨false, false, true, false, false, false⟩
/-- The orders of every port: READ UNIT, READ ROSTER, READ EVENTS, SET EVENT MASK. -/
def ruleAll : OrderRule := ⟨true, true, true, false, false, false⟩
/-- The orders of the Vehicle port alone: SET MODE, SET DEPARTURE, POWER WARNING. -/
def ruleV : OrderRule := ⟨false, true, false, false, false, false⟩
/-- SWEEP NOW, a long order carried out while HALTED (R164, R165). -/
def ruleSweep : OrderRule := ⟨true, false, true, false, false, true⟩
/-- READ STATUS, served on every port in every phase and mode (R164, R170). -/
def ruleStatus : OrderRule := ⟨true, true, true, true, false, false⟩
/-- SAVE SETTINGS and RELOAD SETTINGS, long orders answered HALTED while HALTED. -/
def ruleSettings : OrderRule := ⟨true, false, false, false, true, true⟩
/-- RESET, a long order carried out while HALTED (R164, R166). -/
def ruleReset : OrderRule := ⟨true, false, false, false, false, true⟩

/-- A RESET stands on the port: the next order frame makes the full reset (R166). -/
def State.armed (s : State) (p : Port) : Bool := (s.port p).slot == some .reset

/-- A further order has been taken on the port (R161). -/
def State.countOrder (s : State) (p : Port) : State := s.modPort p fun q => { q with seq := q.seq + 1 }

/-- What R162 to R165 answer before an order's own checks; none when they pass. -/
def State.barred (s : State) (r : OrderRule) (p : Port) : Option Status :=
  if r.allows p = false then some .denied
  else if s.starting = true ∧ p ≠ .V ∧ r.anyPhase = false then some .starting
  else if s.halted = true ∧ r.stopped = true then some .halted
  else if r.long = true ∧ (s.port p).slot.isSome = true then some .busy
  else none

/-- An order is taken on a port (R161, R162): an armed RESET makes the full reset and discards the frame (R166);
otherwise the first check that fails gives the reply, and an order that passes them is carried out by `body`. -/
def State.takeOrder (s : State) (r : OrderRule) (p : Port) (body : State → State) : State :=
  if s.armed p then s.fullReset
  else
    let t := s.countOrder p
    match t.barred r p with
    | some st => t.refuse p st
    | none => body t

/-- A long order takes the slot, and its reply is ACCEPTED (R165). -/
def State.acceptLong (s : State) (p : Port) (k : LongOrder) : State :=
  (s.modPort p fun q => { q with slot := some k }).answer p .accepted .empty

/-- An order answered DONE without data. -/
def State.done (s : State) (p : Port) : State := s.answer p .done .empty

/-- An order whose outcome is not yet known is answered PENDING (R161). -/
def State.keepWaiting (s : State) (p : Port) : State := s.answer p .pending .empty

end Sys2Proof.Machine
end

