-- ==== Sys2Proof/Machine/LineOrders.lean ====
section
/-!
DEFINITION. The orders of the cabin lines: SET LINE (R85), READ LINE (R87), RESET LINE (R88).
-/

namespace Sys2Proof.Machine

open Sys2Proof

/-- SET LINE (R85): the values clamped, their effects, and the reply with both lines' settings and the guard. The line's
effects, parking to a lowered open limit among them, come before the judgement of the new guard (the model's choice, log
entry 45). -/
def State.setLine (s : State) (p : Port) (line : Nat) (args : LineArgs) (guardSeconds : Nat) : State :=
  s.takeOrder ruleY p fun s =>
    match lineNamed line with
    | none => s.refuse p .range
    | some l =>
      if flagOk args.enable = false then s.refuse p .range
      else
        let t := (s.applyLine l (clampLine args)).applyGuard (clampGuard guardSeconds)
        (t.answer p .done (.lines t.lineA.settings t.lineB.settings t.guardTime)).settle

/-- The meaning of SET_LINE (R85). -/
def execSetLine (p : Port) (line : Nat) (args : LineArgs) (guardSeconds : Nat) (s : State) :
    Host.Outcome State Fault Refusal :=
  .next (s.setLine p line args guardSeconds)

/-- What READ LINE returns (R87). -/
def State.lineReport (s : State) (l : Line) : LineReport :=
  let e := s.line l
  { settings := e.settings, guardTime := s.guardTime, state := e.state, run := e.run, charges := e.charges.length,
    sweep := e.sweep.map fun w => (w.kind, w.cursor), openJobs := e.openSet.length, swapping := s.swapCount l,
    stats := e.stats }

/-- READ LINE (R87): with the clear option the counters are cleared after they are taken (R83). -/
def State.readLine (s : State) (p : Port) (line clear : Nat) : State :=
  s.takeOrder ruleYS p fun s =>
    match lineNamed line with
    | none => s.refuse p .range
    | some l =>
      if flagOk clear = false then s.refuse p .range
      else
        let t := s.answer p .done (.line (s.lineReport l))
        if flagSet clear then t.modStats l fun _ => zeroStats else t

/-- The meaning of READ_LINE (R87). -/
def execReadLine (p : Port) (line clear : Nat) (s : State) : Host.Outcome State Fault Refusal :=
  .next (s.readLine p line clear)

/-- An engine's state after a line reset (R88, step 3). -/
def LineEngine.cleared (e : LineEngine) : LineEngine :=
  { e with
    buffer := none, stats := zeroStats, run := 0, charges := [], sweep := none, rosterDue := false
    recoveryTimer := none, recoveryDue := false, wake := true }

/-- The full sweep that follows a line reset: at once, or due while the mode is HALTED (R13, R88; log entry 26). -/
def State.sweepReset (s : State) (l : Line) : State :=
  if s.halted then s.modLine l fun e => { e with fullDue := true } else s.startFull l

/-- Steps 4 and 5 of R88: a FAULTED line returns to ACTIVE with LINE_RECOVERED, and a full sweep starts on a line that is
not DISABLED. -/
def State.restartLine (s : State) (l : Line) : State :=
  match (s.line l).state with
  | .disabled => s
  | .faulted => (s.recoverLine l).sweepReset l
  | .active => s.sweepReset l

/-- RESET LINE (R88). -/
def State.resetLine (s : State) (p : Port) (line : Nat) : State :=
  s.takeOrder ruleYS p fun s =>
    match lineNamed line with
    | none => s.refuse p .range
    | some l =>
      ((((((s.abandon l).parkLine l).modLine l LineEngine.cleared).restartLine l).done p).settle)

/-- The meaning of RESET_LINE (R88). -/
def execResetLine (p : Port) (line : Nat) (s : State) : Host.Outcome State Fault Refusal := .next (s.resetLine p line)

end Sys2Proof.Machine
end

