-- ==== Sys2Proof/Machine/PlanOrders.lean ====
section
/-!
DEFINITION. The orders of the plan: SET PROFILE (R22), SET RULE (R25), REMOVE RULE (R26), READ PLAN (R27).
-/

namespace Sys2Proof.Machine

open Sys2Proof

/-- A profile is written, the lookup of R11 runs for every entry, a changed seed reaching the entries that keep the
index, and all units are resolved (R22, R32). -/
def State.storeProfile (s : State) (index : Nat) (new : Profile) : State :=
  let old := s.profile index
  (({ s with profiles := s.profiles.set index new }).lookupAll
    (if new.seed ≠ old.seed then some index else none)).resolveAll

/-- SET PROFILE (R22). A used flag above 1 is RANGE (R181), also for index 0, whose used value R22 ignores (the model's
choice, log entry 11). -/
def State.setProfile (s : State) (p : Port) (index : Nat) (args : ProfileArgs) : State :=
  s.takeOrder ruleY p fun s =>
    if flagOk args.used = false ∨ 15 < index then s.refuse p .range
    else
      let new := clampProfile index (s.profile index) args
      ((s.storeProfile index new).answer p .done (.profile new)).settle

/-- The meaning of SET_PROFILE (R22). -/
def execSetProfile (p : Port) (index : Nat) (args : ProfileArgs) (s : State) : Host.Outcome State Fault Refusal :=
  .next (s.setProfile p index args)

/-- SET RULE (R25). -/
def State.setRule (s : State) (p : Port) (position : Nat) (args : RuleArgs) : State :=
  s.takeOrder ruleY p fun s =>
    if flagOk args.downgrade = false ∨ ruleInRange args = false then s.refuse p .range
    else if Config.maxRules ≤ s.rules.length then s.refuse p .noRoom
    else
      let i := min position s.rules.length
      let t := { s with rules := s.rules.take i ++ ruleOf args :: s.rules.drop i }
      (t.resolveAll.answer p .done (.position i)).settle

/-- The meaning of SET_RULE (R25). -/
def execSetRule (p : Port) (position : Nat) (args : RuleArgs) (s : State) : Host.Outcome State Fault Refusal :=
  .next (s.setRule p position args)

/-- REMOVE RULE (R26). -/
def State.removeRule (s : State) (p : Port) (position : Nat) : State :=
  s.takeOrder ruleY p fun s =>
    if s.rules.length ≤ position then s.refuse p .notFound
    else ((({ s with rules := s.rules.eraseIdx position }).resolveAll).done p).settle

/-- The meaning of REMOVE_RULE (R26). -/
def execRemoveRule (p : Port) (position : Nat) (s : State) : Host.Outcome State Fault Refusal :=
  .next (s.removeRule p position)

/-- READ PLAN (R27). -/
def State.readPlan (s : State) (p : Port) : State :=
  s.takeOrder ruleYS p fun s => s.answer p .done (.plan s.rules s.profiles)

/-- The meaning of READ_PLAN (R27). -/
def execReadPlan (p : Port) (s : State) : Host.Outcome State Fault Refusal := .next (s.readPlan p)

end Sys2Proof.Machine
end

