-- ==== Sys2Proof/Machine/PortOrders.lean ====
section
/-!
DEFINITION. The orders of the ports and the Settings Unit: SET TIME (R167), READ STATUS (R170), READ EVENTS and SET EVENT
MASK (R169), SAVE SETTINGS (R175), RELOAD SETTINGS (R176), RESET (R166).
-/

namespace Sys2Proof.Machine

open Sys2Proof

/-- SET TIME (R167). -/
def State.setTime (s : State) (p : Port) (value : Nat) : State :=
  s.takeOrder ruleY p fun s =>
    ({ s with time := { s.time with depotTime := value, depotSet := true } }).answer p .done (.time value)

/-- The meaning of SET_TIME (R167). -/
def execSetTime (p : Port) (value : Nat) (s : State) : Host.Outcome State Fault Refusal := .next (s.setTime p value)

/-- One line's part of READ STATUS (R170). -/
def State.lineStatus (s : State) (l : Line) : LineStatus :=
  { state := (s.line l).state, openJobs := (s.line l).openSet.length, swapping := s.swapCount l }

/-- What READ STATUS returns to a port (R170). -/
def State.statusReport (s : State) (p : Port) : StatusReport :=
  { starting := s.starting, mode := s.veh.mode, hold := s.veh.hold.map fun h => ceilDiv h Config.ticksPerSecond,
    cause := s.veh.cause, asserted := s.veh.asserted, countdown := s.time.countdown, window := s.time.window,
    guardTime := s.guardTime, depotTime := s.time.depotTime, depotSet := s.time.depotSet, lineA := s.lineStatus .A,
    lineB := s.lineStatus .B, occupied := s.occupied, jobs := s.jobs.countP Option.isSome,
    heldCount := s.heldSerials.length, free := s.store.free.length, dirty := s.store.dirty.length,
    bad := s.store.bad.length, records := s.store.images.length, engine := s.eng.engineState,
    suspCount := s.eng.suspCount, waiting := s.eng.waiting, slot := (s.port p).slot, mask := (s.port p).mask }

/-- READ STATUS (R170). -/
def State.readStatus (s : State) (p : Port) : State :=
  s.takeOrder ruleStatus p fun s => s.answer p .done (.statusData (s.statusReport p))

/-- The meaning of READ_STATUS (R170). -/
def execReadStatus (p : Port) (s : State) : Host.Outcome State Fault Refusal := .next (s.readStatus p)

/-- READ EVENTS (R169): the calling port's flags are returned, and those returned SET are cleared. -/
def State.readEvents (s : State) (p : Port) : State :=
  s.takeOrder ruleAll p fun s => (s.answer p .done (.events (s.port p).flags)).modPort p PortState.readFlags

/-- The meaning of READ_EVENTS (R169). -/
def execReadEvents (p : Port) (s : State) : Host.Outcome State Fault Refusal := .next (s.readEvents p)

/-- SET EVENT MASK (R169): the calling port's mask is replaced, and the reply carries it as stored. -/
def State.setEventMask (s : State) (p : Port) (enables : List Nat) : State :=
  s.takeOrder ruleAll p fun s =>
    if enables.all flagOk = false then s.refuse p .range
    else
      let t := s.modPort p fun q => q.withMask enables
      t.answer p .done (.mask (t.port p).mask)

/-- The meaning of SET_EVENT_MASK (R169). -/
def execSetEventMask (p : Port) (enables : List Nat) (s : State) : Host.Outcome State Fault Refusal :=
  .next (s.setEventMask p enables)

/-- SAVE SETTINGS (R175): the snapshot, and the erase of extent 0. -/
def State.saveSettings (s : State) (p : Port) : State :=
  s.takeOrder ruleSettings p fun s =>
    (((({ s with settings := { op := .saving p, snapshot := s.record } }).requestClass4 .settingsErase).acceptLong p
      .saveSettings).settleFlash)

/-- The meaning of SAVE_SETTINGS (R175). -/
def execSaveSettings (p : Port) (s : State) : Host.Outcome State Fault Refusal := .next (s.saveSettings p)

/-- RELOAD SETTINGS (R176): the settings read is requested as the step settles. -/
def State.reloadSettings (s : State) (p : Port) : State :=
  s.takeOrder ruleSettings p fun s =>
    ((({ s with settings := { s.settings with op := .reloading p } }).acceptLong p .reloadSettings).settleFlash)

/-- The meaning of RELOAD_SETTINGS (R176). -/
def execReloadSettings (p : Port) (s : State) : Host.Outcome State Fault Refusal := .next (s.reloadSettings p)

/-- RESET (R166): ACCEPTED; the full reset follows the delivery of that reply, or a further order frame. -/
def State.resetOrder (s : State) (p : Port) : State := s.takeOrder ruleReset p fun s => s.acceptLong p .reset

/-- The meaning of RESET (R166). -/
def execReset (p : Port) (s : State) : Host.Outcome State Fault Refusal := .next (s.resetOrder p)

end Sys2Proof.Machine
end

