-- ==== Sys2Proof/Machine/StoreOrders.lean ====
section
/-!
DEFINITION. The orders of the Image Store: OPEN IMAGE (R127), WRITE BLOCK (R128, R129), CLOSE IMAGE (R132), DROP IMAGE
(R135, R136), LIST IMAGES and READ IMAGE (R141).
-/

namespace Sys2Proof.Machine

open Sys2Proof

/-! ### OPEN IMAGE -/

/-- The record OPEN IMAGE writes (R127, step 2). -/
def newImage (p : Port) (id cls hwMin hwMax : Nat) (version : Version) (length : Nat) (crc : Word32)
    (extents : List Nat) : Image :=
  { id := id, state := .receiving, intake := some p, cls := cls, hwMin := hwMin, hwMax := hwMax, version := version,
    length := length, crc := crc, blocks := List.replicate length .missing, received := 0, extents := extents,
    tags := List.replicate extents.length .noTag, markPending := false, markFailed := false, jobCount := 0,
    checkNext := 0, checkCrc := crc32Start, dropped := false, droppers := [] }

/-- OPEN IMAGE's checks, in order (R127): the reply of the first that fails. -/
def State.openBarred (s : State) (p : Port) (id hwMin hwMax length : Nat) : Option Status :=
  if id = 0 ∨ length = 0 ∨ Config.maxImageBlocks < length ∨ hwMax < hwMin then some .range
  else if (s.image id).isSome then some .exists
  else if s.receivingOn p then some .busy
  else if s.store.images.length < Config.maxImages
      ∧ ceilDiv length Config.blocksPerExtent ≤ s.store.free.length then none
  else some .noRoom

/-- An accepted OPEN IMAGE (R127): the extents, the record, STORE_LOW, and the reply DONE with the extent count. -/
def State.openAccepted (s : State) (p : Port) (id cls hwMin hwMax : Nat) (version : Version) (length : Nat)
    (crc : Word32) : State :=
  let n := ceilDiv length Config.blocksPerExtent
  let r := newImage p id cls hwMin hwMax version length crc (s.store.free.take n)
  let t := (s.takeExtents n).modStore fun st => { st with images := st.images ++ [r] }
  (t.judgeLow s.store.free.length).answer p .done (.count n)

/-- OPEN IMAGE (R127). -/
def State.openImage (s : State) (p : Port) (id cls hwMin hwMax : Nat) (version : Version) (length : Nat)
    (crc : Word32) : State :=
  s.takeOrder ruleIntake p fun s =>
    match s.openBarred p id hwMin hwMax length with
    | some st => s.refuse p st
    | none => s.openAccepted p id cls hwMin hwMax version length crc

/-- The meaning of OPEN_IMAGE (R127). -/
def execOpenImage (p : Port) (id cls hwMin hwMax : Nat) (version : Version) (length : Nat) (crc : Word32) (s : State) :
    Host.Outcome State Fault Refusal :=
  .next (s.openImage p id cls hwMin hwMax version length crc)

/-! ### WRITE BLOCK -/

/-- WRITE BLOCK's checks after the record is found, in order (R128). -/
def Image.writeBarred (r : Image) (p : Port) (block : Nat) : Option Status :=
  if r.state ≠ .receiving then some .state
  else if r.intake ≠ some p then some .denied
  else if r.length ≤ block then some .range
  else
    match r.blocks[block]? with
    | some .writing => some .busy
    | some .received => some .blockWritten
    | some .missing => none
    | none => none

/-- WRITE BLOCK (R128, R129): the reply of an accepted order stays PENDING until its program ends. -/
def State.writeBlock (s : State) (p : Port) (id block : Nat) (data : List Byte) : State :=
  s.takeOrder ruleIntake p fun s =>
    match s.image id with
    | none => s.refuse p .notFound
    | some r =>
      match r.writeBarred p block with
      | some st => s.refuse p st
      | none =>
        match r.extentOf block with
        | none => s.keepWaiting p
        | some x => ((s.keepWaiting p).requestBlock r block x data (s.ticket p)).settleFlash

/-- The meaning of WRITE_BLOCK (R128, R129). -/
def execWriteBlock (p : Port) (id block : Nat) (data : List Byte) (s : State) : Host.Outcome State Fault Refusal :=
  .next (s.writeBlock p id block data)

/-! ### CLOSE IMAGE -/

/-- CLOSE IMAGE's checks after the record is found, in order (R132). -/
def Image.closeBarred (r : Image) (p : Port) : Option Status :=
  if r.state ≠ .receiving then some .state
  else if r.intake ≠ some p then some .denied
  else if r.received ≠ r.length then some .incomplete
  else none

/-- The record takes CHECKING, its check at block 0 (R132, R133). -/
def Image.checked (r : Image) : Image := { r with state := .checking, checkNext := 0, checkCrc := crc32Start }

/-- CLOSE IMAGE (R132). -/
def State.closeImage (s : State) (p : Port) (id : Nat) : State :=
  s.takeOrder ruleClose p fun s =>
    match s.image id with
    | none => s.refuse p .notFound
    | some r =>
      match r.closeBarred p with
      | some st => s.refuse p st
      | none => ((s.modImage id Image.checked).acceptLong p (.closeImage id)).settleFlash

/-- The meaning of CLOSE_IMAGE (R132). -/
def execCloseImage (p : Port) (id : Nat) (s : State) : Host.Outcome State Fault Refusal := .next (s.closeImage p id)

/-! ### DROP IMAGE -/

/-- A record in RECEIVING is dropped (R135). -/
def State.dropReceiving (s : State) (p : Port) (r : Image) : State :=
  let writes := s.waitingWrites r.id
  let t := ((s.withdrawPrograms r.id).discardPrograms r.id).finishAll writes .state
  (t.freeRecord r none).done p

/-- A record in CHECKING is dropped (R135): at once, or when its last mark program has ended. -/
def State.dropChecking (s : State) (p : Port) (r : Image) : State :=
  if r.markPending then
    (s.keepWaiting p).modImage r.id fun r => { r with dropped := true, droppers := r.droppers ++ [s.ticket p] }
  else ((s.dropCheck r.id).freeDropped r none).done p

/-- The jobs that name an image and have never been opened (R62, R136), by ascending tag (the model's choice, log entry
44). -/
def State.unopenedJobs (s : State) (id : Nat) : List Nat :=
  (List.range Config.tags).filter fun t => (s.job t).any fun j => j.imageId == id && !j.everOpened

/-- A STORED record is dropped (R136): RETIRING at once, its drop mark requested, its never-opened jobs removed, and all
units resolved. Each removal gives its tag to a waiting unit before the next (R58; log entry 44). -/
def State.dropStored (s : State) (p : Port) (r : Image) : State :=
  let t := (s.modImage r.id fun r => { r with state := .retiring, droppers := [s.ticket p] }).keepWaiting p
  let t := t.requestDropMark r
  ((t.unopenedJobs r.id).foldl (fun s tag => (s.removeJob tag).createJobs) t).resolveAll

/-- What DROP IMAGE does with the record it names, by its state (R135). -/
def State.dropRecord (s : State) (p : Port) (r : Image) : State :=
  match r.state with
  | .receiving => s.dropReceiving p r
  | .damaged => (s.forget r.id).done p
  | .checking => s.dropChecking p r
  | .stored => s.dropStored p r
  | .retiring => s.refuse p .state

/-- DROP IMAGE (R135, R136). -/
def State.dropImage (s : State) (p : Port) (id : Nat) : State :=
  s.takeOrder ruleIntake p fun s =>
    match s.image id with
    | none => s.refuse p .notFound
    | some r => (s.dropRecord p r).settle

/-- The meaning of DROP_IMAGE (R135, R136). -/
def execDropImage (p : Port) (id : Nat) (s : State) : Host.Outcome State Fault Refusal := .next (s.dropImage p id)

/-! ### LIST IMAGES and READ IMAGE -/

/-- Puts a record at its place in ascending image id. -/
def insertImage (r : Image) : List Image → List Image
  | [] => [r]
  | x :: xs => if r.id < x.id then r :: x :: xs else x :: insertImage r xs

/-- The directory in ascending image id (R141). -/
def sortImages (xs : List Image) : List Image := xs.foldl (fun ys r => insertImage r ys) []

/-- One line of LIST IMAGES (R141). -/
def Image.summary (r : Image) : ImageSummary :=
  { id := r.id, state := r.state, version := r.version, length := r.length, received := r.received
    jobCount := r.jobCount }

/-- LIST IMAGES (R141). -/
def State.listImages (s : State) (p : Port) : State :=
  s.takeOrder ruleYS p fun s =>
    s.answer p .done (.images s.store.free.length s.store.dirty.length s.store.bad.length
      ((sortImages s.store.images).map Image.summary))

/-- The meaning of LIST_IMAGES (R141). -/
def execListImages (p : Port) (s : State) : Host.Outcome State Fault Refusal := .next (s.listImages p)

/-- The numbers of up to 64 blocks in MISSING, lowest first (R141). -/
def Image.missing (r : Image) : List Nat :=
  ((List.range r.length).filter fun b => r.blocks[b]? == some .missing).take 64

/-- What READ IMAGE returns of a record, from an extent position (R141). -/
def Image.report (r : Image) (first : Nat) : ImageReport :=
  { id := r.id, state := r.state, intake := r.intake, cls := r.cls, hwMin := r.hwMin, hwMax := r.hwMax,
    version := r.version, length := r.length, crc := r.crc, received := r.received, markPending := r.markPending,
    markFailed := r.markFailed, jobCount := r.jobCount, extents := (r.extents.drop first).take 32,
    missing := r.missing }

/-- READ IMAGE (R141). -/
def State.readImage (s : State) (p : Port) (id first : Nat) : State :=
  s.takeOrder ruleYS p fun s =>
    match s.image id with
    | none => s.refuse p .notFound
    | some r => s.answer p .done (.image (r.report first))

/-- The meaning of READ_IMAGE (R141). -/
def execReadImage (p : Port) (id first : Nat) (s : State) : Host.Outcome State Fault Refusal :=
  .next (s.readImage p id first)

end Sys2Proof.Machine
end

