-- ==== Sys2Proof/Machine/UnitOrders.lean ====
section
/-!
DEFINITION. The orders of the roster: PIN UNIT (R29), UNPIN UNIT (R30), RELEASE UNIT (R19), READ UNIT and READ ROSTER
(R171), SWEEP NOW (R17).
-/

namespace Sys2Proof.Machine

open Sys2Proof

/-- A slot number is judged before anything else: above 31 RANGE, a free slot NOT_FOUND (R19, R29, R30, R171). -/
def State.withSlot (s : State) (p : Port) (slot : Nat) (f : Entry → State) : State :=
  if Config.slots ≤ slot then s.refuse p .range
  else
    match s.entry slot with
    | none => s.refuse p .notFound
    | some e => f e

/-- Writes an entry's pin of a port's kind: the service pin from the Service port, the yard pin otherwise (R29). -/
def Entry.withPin (e : Entry) (p : Port) (pin : Option Pin) : Entry :=
  match p with
  | .S => { e with servicePin := pin }
  | .Y => { e with yardPin := pin }
  | .V => { e with yardPin := pin }

/-- An entry's pin of a port's kind (R30). -/
def Entry.pinOf (e : Entry) : Port → Option Pin
  | .S => e.servicePin
  | .Y => e.yardPin
  | .V => e.yardPin

/-- Changes the pin table of a port's kind (R28). -/
def State.modPins (s : State) (p : Port) (f : List PinRecord → List PinRecord) : State :=
  match p with
  | .S => { s with servicePins := f s.servicePins }
  | .Y => { s with yardPins := f s.yardPins }
  | .V => { s with yardPins := f s.yardPins }

/-- PIN UNIT's acceptance (R29): the entry, the table, resolution, DONE. -/
def State.pinAccepted (s : State) (p : Port) (slot : Nat) (e : Entry) (pin : Pin) : State :=
  let t := s.setEntry slot (some (e.withPin p (some pin)))
  ((((t.modPins p fun table => t.writePin table e.serial pin).resolve slot).done p).settle)

/-- PIN UNIT (R29). -/
def State.pinUnit (s : State) (p : Port) (slot imageId prio noRetry : Nat) : State :=
  s.takeOrder ruleYS p fun s =>
    if flagOk noRetry = false then s.refuse p .range
    else s.withSlot p slot fun e =>
      if pinInRange imageId prio = false then s.refuse p .range
      else s.pinAccepted p slot e { imageId := imageId, prio := prio, noRetry := flagSet noRetry }

/-- The meaning of PIN_UNIT (R29). -/
def execPinUnit (p : Port) (slot imageId prio noRetry : Nat) (s : State) : Host.Outcome State Fault Refusal :=
  .next (s.pinUnit p slot imageId prio noRetry)

/-- UNPIN UNIT (R30). -/
def State.unpinUnit (s : State) (p : Port) (slot : Nat) : State :=
  s.takeOrder ruleYS p fun s =>
    s.withSlot p slot fun e =>
      match e.pinOf p with
      | none => s.done p
      | some _ =>
        (((((s.setEntry slot (some (e.withPin p none))).modPins p fun table => dropPin table e.serial).resolve slot).done
          p).settle)

/-- The meaning of UNPIN_UNIT (R30). -/
def execUnpinUnit (p : Port) (slot : Nat) (s : State) : Host.Outcome State Fault Refusal := .next (s.unpinUnit p slot)

/-- The entry leaves HELD (R19): fail count 0, prior version cleared, revert progress NONE; resolution decides the
rest. -/
def Entry.released (e : Entry) : Entry :=
  { e with state := .inStep, failCount := 0, prior := none, revert := .idle }

/-- RELEASE UNIT's steps for a HELD entry (R19). -/
def State.releaseAccepted (s : State) (p : Port) (slot : Nat) (e : Entry) : State :=
  let t := s.abandonIf e.line fun x => x.purpose == .revert slot
  let t := { t with heldSerials := t.heldSerials.filter (· != e.serial) }
  ((((t.setEntry slot (some e.released)).resolve slot).done p).settle)

/-- RELEASE UNIT (R19). -/
def State.releaseUnit (s : State) (p : Port) (slot : Nat) : State :=
  s.takeOrder ruleS p fun s =>
    s.withSlot p slot fun e =>
      if e.state = .held then s.releaseAccepted p slot e else s.refuse p .state

/-- The meaning of RELEASE_UNIT (R19). -/
def execReleaseUnit (p : Port) (slot : Nat) (s : State) : Host.Outcome State Fault Refusal :=
  .next (s.releaseUnit p slot)

/-- What READ UNIT returns of a slot (R171). -/
def State.unitDetail (s : State) (slot : Nat) (e : Entry) : UnitDetail :=
  { entry := e, job := (s.tagOf slot).bind fun t => (s.job t).map fun j => (t, j), paused := s.bootPaused e }

/-- READ UNIT (R171). -/
def State.readUnit (s : State) (p : Port) (slot : Nat) : State :=
  s.takeOrder ruleAll p fun s =>
    s.withSlot p slot fun e => s.answer p .done (.unitData (s.unitDetail slot e))

/-- The meaning of READ_UNIT (R171). -/
def execReadUnit (p : Port) (slot : Nat) (s : State) : Host.Outcome State Fault Refusal := .next (s.readUnit p slot)

/-- One slot of READ ROSTER (R171). -/
def State.slotSummary (s : State) (slot : Nat) : Option RosterSummary :=
  (s.entry slot).map fun e =>
    { line := e.line, address := e.address, serial := e.serial, presence := e.presence, state := e.state,
      failCount := e.failCount, running := e.runningVersion, tag := s.tagOf slot }

/-- READ ROSTER (R171): up to 16 consecutive slots, ending at slot 31. -/
def State.readRoster (s : State) (p : Port) (first : Nat) : State :=
  s.takeOrder ruleAll p fun s =>
    if Config.slots ≤ first then s.refuse p .range
    else s.answer p .done (.roster ((List.range (min 16 (Config.slots - first))).map fun i => s.slotSummary (first + i)))

/-- The meaning of READ_ROSTER (R171). -/
def execReadRoster (p : Port) (first : Nat) (s : State) : Host.Outcome State Fault Refusal :=
  .next (s.readRoster p first)

/-- A line's part in a SWEEP NOW as it is accepted (R17). -/
def State.coverOf (s : State) (l : Line) : Cover :=
  match (s.line l).state with
  | .active => .outstanding
  | .faulted => .ended .cut
  | .disabled => .ended .notSwept

/-- A full sweep is in progress on the line. -/
def State.fullSweeping (s : State) (l : Line) : Bool := (s.line l).sweep.any fun w => w.kind == .full

/-- SWEEP NOW reaches a line (R13): an ACTIVE line starts a full sweep, or continues the one in progress. -/
def State.sweepLine (s : State) (l : Line) : State :=
  if (s.line l).state = .active ∧ s.fullSweeping l = false then s.startFull l else s

/-- SWEEP NOW (R17). -/
def State.sweepNow (s : State) (p : Port) : State :=
  s.takeOrder ruleSweep p fun s =>
    (((s.acceptLong p (.sweepNow (s.coverOf .A) (s.coverOf .B))).sweepLine .A).sweepLine .B).settle

/-- The meaning of SWEEP_NOW (R17). -/
def execSweepNow (p : Port) (s : State) : Host.Outcome State Fault Refusal := .next (s.sweepNow p)

end Sys2Proof.Machine
end

