-- ==== Sys2Proof/Machine/VehicleOrders.lean ====
section
/-!
DEFINITION. The orders of the vehicle computer: SET MODE (R153), SET DEPARTURE (R97), POWER WARNING (R157).
-/

namespace Sys2Proof.Machine

open Sys2Proof

/-- SET MODE (R153): the first case that applies decides. The reply follows the effects. -/
def State.setMode (s : State) (p : Port) (mode : Nat) : State :=
  s.takeOrder ruleV p fun s =>
    match modeNamed mode with
    | none => s.refuse p .range
    | some .halted => ((s.halt .setMode).done p).settle
    | some m =>
      if s.halted = true ∧ s.veh.asserted = true then s.refuse p .halted
      else ((s.changeMode m).done p).settle

/-- The meaning of SET_MODE (R153). -/
def execSetMode (p : Port) (mode : Nat) (s : State) : Host.Outcome State Fault Refusal := .next (s.setMode p mode)

/-- SET DEPARTURE (R97): the value is pending until the next tick takes it; an optional field outside its encoding is
answered RANGE (R181). -/
def State.setDeparture (s : State) (p : Port) (given value : Nat) : State :=
  s.takeOrder ruleV p fun s =>
    if departureOk given value = false then s.refuse p .range
    else
      let v := departureOf given value
      ({ s with time := { s.time with upcoming := some v } }).answer p .done (.countdown v)

/-- The meaning of SET_DEPARTURE (R97). -/
def execSetDeparture (p : Port) (given value : Nat) (s : State) : Host.Outcome State Fault Refusal :=
  .next (s.setDeparture p given value)

/-- POWER WARNING (R157). -/
def State.powerWarning (s : State) (p : Port) : State :=
  s.takeOrder ruleV p fun s => ((s.halt .order).done p).settle

/-- The meaning of POWER_WARNING (R157). -/
def execPowerWarning (p : Port) (s : State) : Host.Outcome State Fault Refusal := .next (s.powerWarning p)

end Sys2Proof.Machine
end

