-- ==== Sys2Proof/Machine/PortEvents.lean ====
section
/-!
DEFINITION. What reaches the part at its ports besides decoded orders: the full reset (R177), order frames as bytes
(R160, R162), reply reads (R161, R166), the Service port's frame timeout (R160) and the end of its reply (R161).
-/

namespace Sys2Proof.Machine

open Sys2Proof

/-- The meaning of FULL_RESET (R177). -/
def execFullReset (s : State) : Host.Outcome State Fault Refusal := .next s.fullReset

/-! ### Order frames as bytes -/

/-- Carries out the order a well-formed frame carries; commands that are no order leave the part as it is. -/
def State.runOrder (s : State) : Instr → State
  | .openImage p id cls lo hi v len crc => s.openImage p id cls lo hi v len crc
  | .writeBlock p id block data => s.writeBlock p id block data
  | .closeImage p id => s.closeImage p id
  | .dropImage p id => s.dropImage p id
  | .listImages p => s.listImages p
  | .readImage p id first => s.readImage p id first
  | .setProfile p index args => s.setProfile p index args
  | .setRule p position args => s.setRule p position args
  | .removeRule p position => s.removeRule p position
  | .readPlan p => s.readPlan p
  | .pinUnit p slot id prio noRetry => s.pinUnit p slot id prio noRetry
  | .unpinUnit p slot => s.unpinUnit p slot
  | .releaseUnit p slot => s.releaseUnit p slot
  | .readUnit p slot => s.readUnit p slot
  | .readRoster p first => s.readRoster p first
  | .sweepNow p => s.sweepNow p
  | .setMode p mode => s.setMode p mode
  | .setDeparture p given value => s.setDeparture p given value
  | .powerWarning p => s.powerWarning p
  | .setLine p line args g => s.setLine p line args g
  | .readLine p line clear => s.readLine p line clear
  | .resetLine p line => s.resetLine p line
  | .setTime p value => s.setTime p value
  | .readStatus p => s.readStatus p
  | .readEvents p => s.readEvents p
  | .setEventMask p enables => s.setEventMask p enables
  | .saveSettings p => s.saveSettings p
  | .reloadSettings p => s.reloadSettings p
  | .reset p => s.resetOrder p
  | .fullReset => s
  | .badFrame _ _ => s
  | .replyRead _ _ => s
  | .serviceFrameTimeout => s
  | .identReceived _ _ => s
  | .fillReceived _ _ => s
  | .takenReceived _ _ => s
  | .stateReceived _ _ => s
  | .badReply _ _ => s
  | .noReply _ => s
  | .frameSent _ => s
  | .pollDue _ => s
  | .activationProbeDue _ => s
  | .sweepIntervalExpiry _ => s
  | .sweepProbeOverdue _ => s
  | .recoveryTimerExpiry _ => s
  | .bootTimerFirstExpiry _ => s
  | .bootTimerFallbackExpiry _ => s
  | .oneSecondTick => s
  | .windowCutoff => s
  | .modeHoldExpiry => s
  | .pwrwarnAsserted => s
  | .pwrwarnCleared => s
  | .lineReadDone => s
  | .pageProgramDone _ => s
  | .tagProgramDone _ => s
  | .closeCheckReadDone => s
  | .closeMarkProgramDone _ => s
  | .dropMarkProgramDone _ => s
  | .backgroundEraseDone _ => s
  | .eraseSuspended => s
  | .settingsEraseDone _ => s
  | .settingsPageProgramDone _ => s
  | .settingsReadDone => s
  | .tagReadDone => s
  | .flashOperationLimit => s
  | .recoveryHoldEnd => s
  | .pwrwarnSample _ => s
  | .interframeGapEnd _ => s
  | .serviceReplySent => s

/-- The status a malformed frame is answered with (R162). -/
def faultStatus : OrderFault → Status
  | .badFrame => .badFrame
  | .badOrder => .badOrder

/-- An order frame has arrived whole on a port (R162): an armed RESET discards it (R166); a malformed one is answered
BAD_FRAME or BAD_ORDER and changes nothing else; any other is carried out. -/
def State.judgeFrame (s : State) (p : Port) (frame : List Byte) : State :=
  if s.armed p then s.fullReset
  else
    match decodeOrder p frame with
    | .error f => (s.countOrder p).refuse p (faultStatus f)
    | .ok i => s.runOrder i

/-- The frame in the Service port's order buffer has all the bytes its length field gives, and that field lies within 5
to 300 (R160). -/
def frameComplete (bs : List Byte) : Bool :=
  decide (2 ≤ bs.length) && num16 bs 0 == bs.length && decide (5 ≤ bs.length) && decide (bs.length ≤ 300)

/-- A character is received on SRXD (R160): a frame is judged when its last byte has arrived. -/
def State.serviceByte (s : State) (b : Byte) : State :=
  let bs := s.portS.order ++ [b]
  if frameComplete bs then (s.modPort .S fun q => { q with order := [] }).judgeFrame .S bs
  else s.modPort .S fun q => { q with order := bs }

/-! ### Reply reads -/

/-- The bytes a read of `n` bytes clocks out: the reply frame, and 0xFF beyond its end (R160). -/
def clockedOut (frame : List Byte) (n : Nat) : List Byte := frame.take n ++ List.replicate (n - frame.length) 0xFF

/-- The frame a port's reply buffer holds; PENDING with no data when no order has been taken (R161). -/
def PortState.frame (q : PortState) : List Byte := replyFrame (q.reply.getD noReplyYet)

/-- A read of a port's reply buffer: it is delivered when its last byte has been clocked out (R160). -/
def PortState.readOut (q : PortState) (n : Nat) : PortState :=
  { q with
    output := clockedOut q.frame n
    delivered := q.delivered || (q.reply.isSome && decide (q.frame.length ≤ n)) }

/-- A reply read cycle on the Yard or Vehicle port (R160, R161); the Service port has none. Delivering a RESET's
ACCEPTED makes the full reset (R166). -/
def State.readReply (s : State) (p : Port) (n : Nat) : State :=
  match p with
  | .S => s
  | .Y | .V =>
    let t := s.modPort p fun q => q.readOut n
    if t.armed p && (t.port p).delivered then t.fullReset else t

/-- The meaning of REPLY_READ (R161, R166). -/
def execReplyRead (p : Port) (clocked : Nat) (s : State) : Host.Outcome State Fault Refusal :=
  .next (s.readReply p clocked)

/-! ### Port cycles -/

/-- A chip-select cycle on the Yard port (R160, R181): its first byte names an order write or a reply read; any other
cycle is ignored. -/
def State.yardCycle (s : State) : List Byte → State
  | [] => s
  | b :: rest => if b = 1 then s.judgeFrame .Y rest else if b = 2 then s.readReply .Y rest.length else s

/-- Bytes arrive on a port: a Yard cycle, a Vehicle write transaction, or characters on SRXD (R160; log entry 24). -/
def State.receiveFrame (s : State) (p : Port) (bytes : List Byte) : State :=
  match p with
  | .Y => s.yardCycle bytes
  | .V => s.judgeFrame .V bytes
  | .S => bytes.foldl State.serviceByte s

/-- The meaning of BAD_FRAME (R162). -/
def execBadFrame (p : Port) (cycle : List Byte) (s : State) : Host.Outcome State Fault Refusal :=
  .next (s.receiveFrame p cycle)

/-! ### The Service port's own events -/

/-- The meaning of SERVICE_FRAME_TIMEOUT (R160): the partial frame is discarded and draws no reply. -/
def execServiceFrameTimeout (s : State) : Host.Outcome State Fault Refusal :=
  .next (s.modPort .S fun q => { q with order := [] })

/-- The frame on STXD is sent: its reply is delivered, and a reply that waits behind it starts to be sent (R161). -/
def PortState.replySent (q : PortState) : PortState :=
  match q.sending with
  | none => q
  | some r =>
    if q.unsent then { q with output := replyFrame r, sending := q.reply, unsent := false }
    else { q with output := replyFrame r, sending := none, delivered := true }

/-- The meaning of SERVICE_REPLY_SENT (R161). -/
def execServiceReplySent (s : State) : Host.Outcome State Fault Refusal := .next (s.modPort .S PortState.replySent)

end Sys2Proof.Machine
end

