-- ==== Sys2Proof/Machine/TimeEvents.lean ====
section
/-!
DEFINITION. What time brings: due polls and probes (R72, R111), the sweep and recovery timers (R12, R75, R82), boot timers
(R117, R119), the one-second tick (R96), the window (R99), the mode hold (R154) and the samples of PWRWARN_N (R156).
An event that falls due at a time shows that the time has come (log entry 1); one that nothing awaits changes nothing
(log entry 6).
-/

namespace Sys2Proof.Machine

open Sys2Proof

/-- A job's poll falls due (R72): the arbiter of its line chooses again (R74). -/
def State.pollFalls (s : State) (tag : Nat) : State :=
  match s.job tag with
  | none => s
  | some j =>
    if j.state = .released ∨ j.state = .verifying then
      match j.pollDue with
      | none => s
      | some t => ((s.advanceTo t).wake (s.jobLine j)).settle
    else s

/-- The meaning of POLL_DUE (R72). -/
def execPollDue (tag : Nat) (s : State) : Host.Outcome State Fault Refusal := .next (s.pollFalls tag)

/-- An activation probe falls due (R111): the arbiter of the entry's line chooses again (R74). -/
def State.probeFalls (s : State) (slot : Nat) : State :=
  match s.entry slot with
  | none => s
  | some e =>
    if e.activating then
      match e.probeDue with
      | none => s
      | some t => ((s.advanceTo t).wake e.line).settle
    else s

/-- The meaning of ACTIVATION_PROBE_DUE (R111). -/
def execActivationProbeDue (slot : Nat) (s : State) : Host.Outcome State Fault Refusal := .next (s.probeFalls slot)

/-- The sweep interval timer expires (R12): a roster sweep starts, or is due when a sweep is in progress. -/
def State.intervalExpires (s : State) (l : Line) : State :=
  match (s.line l).sweepTimer with
  | none => s
  | some t =>
    let u := s.advanceTo t
    (if (u.line l).sweep.isSome then u.modLine l fun e => { e with rosterDue := true, sweepTimer := none }
      else u.startRoster l).settle

/-- The meaning of SWEEP_INTERVAL_EXPIRY (R12). -/
def execSweepIntervalExpiry (l : Line) (s : State) : Host.Outcome State Fault Refusal := .next (s.intervalExpires l)

/-- More than 250 ms have passed since the sweep's last probe: the arbiter chooses again (R74, R75). -/
def State.probeOverdue (s : State) (l : Line) : State :=
  match (s.line l).sweep with
  | none => s
  | some w => ((s.advanceTo (w.lastProbe + Config.sweepOverdueTicks + 1)).wake l).settle

/-- The meaning of SWEEP_PROBE_OVERDUE (R75). -/
def execSweepProbeOverdue (l : Line) (s : State) : Host.Outcome State Fault Refusal := .next (s.probeOverdue l)

/-- The recovery timer of a FAULTED line expires (R82): a recovery probe is due, and the timer restarts. -/
def State.recoveryExpires (s : State) (l : Line) : State :=
  match (s.line l).state, (s.line l).recoveryTimer with
  | .faulted, some t =>
    let u := s.advanceTo t
    (u.modLine l fun e =>
      { e with
        recoveryDue := true, wake := true
        recoveryTimer := some (u.now + sweepTicks e.settings.interval) }).settle
  | _, _ => s

/-- The meaning of RECOVERY_TIMER_EXPIRY (R82). -/
def execRecoveryTimerExpiry (l : Line) (s : State) : Host.Outcome State Fault Refusal := .next (s.recoveryExpires l)

/-- The boot timer of an entry in SWITCHING expires (R117). -/
def State.bootFirst (s : State) (slot : Nat) : State :=
  match s.entry slot with
  | none => s
  | some e => if e.state = .switching ∧ e.bootRunDown = true then (s.firstExpiry slot e).settle else s

/-- The meaning of BOOT_TIMER_FIRST_EXPIRY (R117). -/
def execBootTimerFirstExpiry (slot : Nat) (s : State) : Host.Outcome State Fault Refusal := .next (s.bootFirst slot)

/-- The boot timer of an entry in FALLBACK expires, in either phase (R119). -/
def State.bootFallback (s : State) (slot : Nat) : State :=
  match s.entry slot with
  | none => s
  | some e => if e.state = .fallback ∧ e.bootRunDown = true then (s.endLost slot e).settle else s

/-- The meaning of BOOT_TIMER_FALLBACK_EXPIRY (R119). -/
def execBootTimerFallbackExpiry (slot : Nat) (s : State) : Host.Outcome State Fault Refusal :=
  .next (s.bootFallback slot)

/-- The meaning of ONE_SECOND_TICK (R96). -/
def execOneSecondTick (s : State) : Host.Outcome State Fault Refusal := .next s.tick.settle

/-- The meaning of WINDOW_CUTOFF (R99): the window is judged, and closes when the countdown has come to the guard (log
entry 15). -/
def execWindowCutoff (s : State) : Host.Outcome State Fault Refusal := .next s.judgeWindow.settle

/-- The mode hold runs out (R154). -/
def State.holdExpires (s : State) : State :=
  match s.veh.hold with
  | none => s
  | some h => ((s.advance h).expireMode).settle

/-- The meaning of MODE_HOLD_EXPIRY (R154). -/
def execModeHoldExpiry (s : State) : Host.Outcome State Fault Refusal := .next s.holdExpires

/-- A sample of PWRWARN_N, 100 us after the last (R156). -/
def State.samplePin (s : State) (active : Bool) : State := ((s.advance 1).sampleWarning active).settle

/-- The meaning of PWRWARN_SAMPLE (R156). -/
def execPwrwarnSample (active : Bool) (s : State) : Host.Outcome State Fault Refusal := .next (s.samplePin active)

/-- The meaning of PWRWARN_ASSERTED (R156): the third active sample in a row at level CLEAR; at any other run it is not
that sample and changes nothing. -/
def execPwrwarnAsserted (s : State) : Host.Outcome State Fault Refusal :=
  .next (if s.veh.asserted = false ∧ s.veh.run = 2 then s.samplePin true else s)

/-- The meaning of PWRWARN_CLEARED (R156): the third inactive sample in a row at level ASSERTED. -/
def execPwrwarnCleared (s : State) : Host.Outcome State Fault Refusal :=
  .next (if s.veh.asserted = true ∧ s.veh.run = 2 then s.samplePin false else s)

end Sys2Proof.Machine
end

