-- ==== Sys2Proof/Machine/Dispatch.lean ====
section
/-!
DEFINITION. The meaning of each command: one arm per constructor of Instr, in the order of spec/opcode_table.json.
-/

namespace Sys2Proof.Machine

open Sys2Proof

def exec (i : Instr) (s : State) : Host.Outcome State Fault Refusal :=
  match i with
  | .fullReset => Sys2Proof.Machine.execFullReset s
  | .openImage p id cls hwMin hwMax version length crc => Sys2Proof.Machine.execOpenImage p id cls hwMin hwMax version length crc s
  | .writeBlock p id block data => Sys2Proof.Machine.execWriteBlock p id block data s
  | .closeImage p id => Sys2Proof.Machine.execCloseImage p id s
  | .dropImage p id => Sys2Proof.Machine.execDropImage p id s
  | .listImages p => Sys2Proof.Machine.execListImages p s
  | .readImage p id first => Sys2Proof.Machine.execReadImage p id first s
  | .setProfile p index args => Sys2Proof.Machine.execSetProfile p index args s
  | .setRule p position args => Sys2Proof.Machine.execSetRule p position args s
  | .removeRule p position => Sys2Proof.Machine.execRemoveRule p position s
  | .readPlan p => Sys2Proof.Machine.execReadPlan p s
  | .pinUnit p slot imageId prio noRetry => Sys2Proof.Machine.execPinUnit p slot imageId prio noRetry s
  | .unpinUnit p slot => Sys2Proof.Machine.execUnpinUnit p slot s
  | .releaseUnit p slot => Sys2Proof.Machine.execReleaseUnit p slot s
  | .readUnit p slot => Sys2Proof.Machine.execReadUnit p slot s
  | .readRoster p first => Sys2Proof.Machine.execReadRoster p first s
  | .sweepNow p => Sys2Proof.Machine.execSweepNow p s
  | .setMode p mode => Sys2Proof.Machine.execSetMode p mode s
  | .setDeparture p given value => Sys2Proof.Machine.execSetDeparture p given value s
  | .powerWarning p => Sys2Proof.Machine.execPowerWarning p s
  | .setLine p line args guardSeconds => Sys2Proof.Machine.execSetLine p line args guardSeconds s
  | .readLine p line clear => Sys2Proof.Machine.execReadLine p line clear s
  | .resetLine p line => Sys2Proof.Machine.execResetLine p line s
  | .setTime p value => Sys2Proof.Machine.execSetTime p value s
  | .readStatus p => Sys2Proof.Machine.execReadStatus p s
  | .readEvents p => Sys2Proof.Machine.execReadEvents p s
  | .setEventMask p enables => Sys2Proof.Machine.execSetEventMask p enables s
  | .saveSettings p => Sys2Proof.Machine.execSaveSettings p s
  | .reloadSettings p => Sys2Proof.Machine.execReloadSettings p s
  | .reset p => Sys2Proof.Machine.execReset p s
  | .badFrame p cycle => Sys2Proof.Machine.execBadFrame p cycle s
  | .replyRead p clocked => Sys2Proof.Machine.execReplyRead p clocked s
  | .serviceFrameTimeout => Sys2Proof.Machine.execServiceFrameTimeout s
  | .identReceived l ident => Sys2Proof.Machine.execIdentReceived l ident s
  | .fillReceived l f => Sys2Proof.Machine.execFillReceived l f s
  | .takenReceived l t => Sys2Proof.Machine.execTakenReceived l t s
  | .stateReceived l u => Sys2Proof.Machine.execStateReceived l u s
  | .badReply l r => Sys2Proof.Machine.execBadReply l r s
  | .noReply l => Sys2Proof.Machine.execNoReply l s
  | .frameSent l => Sys2Proof.Machine.execFrameSent l s
  | .pollDue tag => Sys2Proof.Machine.execPollDue tag s
  | .activationProbeDue slot => Sys2Proof.Machine.execActivationProbeDue slot s
  | .sweepIntervalExpiry l => Sys2Proof.Machine.execSweepIntervalExpiry l s
  | .sweepProbeOverdue l => Sys2Proof.Machine.execSweepProbeOverdue l s
  | .recoveryTimerExpiry l => Sys2Proof.Machine.execRecoveryTimerExpiry l s
  | .bootTimerFirstExpiry slot => Sys2Proof.Machine.execBootTimerFirstExpiry slot s
  | .bootTimerFallbackExpiry slot => Sys2Proof.Machine.execBootTimerFallbackExpiry slot s
  | .oneSecondTick => Sys2Proof.Machine.execOneSecondTick s
  | .windowCutoff => Sys2Proof.Machine.execWindowCutoff s
  | .modeHoldExpiry => Sys2Proof.Machine.execModeHoldExpiry s
  | .pwrwarnAsserted => Sys2Proof.Machine.execPwrwarnAsserted s
  | .pwrwarnCleared => Sys2Proof.Machine.execPwrwarnCleared s
  | .lineReadDone => Sys2Proof.Machine.execLineReadDone s
  | .pageProgramDone ok => Sys2Proof.Machine.execPageProgramDone ok s
  | .tagProgramDone ok => Sys2Proof.Machine.execTagProgramDone ok s
  | .closeCheckReadDone => Sys2Proof.Machine.execCloseCheckReadDone s
  | .closeMarkProgramDone ok => Sys2Proof.Machine.execCloseMarkProgramDone ok s
  | .dropMarkProgramDone ok => Sys2Proof.Machine.execDropMarkProgramDone ok s
  | .backgroundEraseDone ok => Sys2Proof.Machine.execBackgroundEraseDone ok s
  | .eraseSuspended => Sys2Proof.Machine.execEraseSuspended s
  | .settingsEraseDone ok => Sys2Proof.Machine.execSettingsEraseDone ok s
  | .settingsPageProgramDone ok => Sys2Proof.Machine.execSettingsPageProgramDone ok s
  | .settingsReadDone => Sys2Proof.Machine.execSettingsReadDone s
  | .tagReadDone => Sys2Proof.Machine.execTagReadDone s
  | .flashOperationLimit => Sys2Proof.Machine.execFlashOperationLimit s
  | .recoveryHoldEnd => Sys2Proof.Machine.execRecoveryHoldEnd s
  | .pwrwarnSample active => Sys2Proof.Machine.execPwrwarnSample active s
  | .interframeGapEnd l => Sys2Proof.Machine.execInterframeGapEnd l s
  | .serviceReplySent => Sys2Proof.Machine.execServiceReplySent s

end Sys2Proof.Machine
end

