-- ==== Sys2Proof/Safety.lean ====
section
/-!
DEFINITION. The terms that claims about the ND3204 are stated in: the invariants a run must keep (the store and the job
pool among them), the frames of orders and of what settles at the end of a step, what becomes of jobs and of sweeps, and
the states in which nothing is left to settle.
-/

namespace Sys2Proof.Machine

open Sys2Proof

/-! ### Invariants -/

/-- The vehicle interface is as R152 to R157 say: a mode hold exactly in YARD and QUIET, at most 30,000 ms; a cause
exactly in HALTED; a run count of at most 2; and the warning level ASSERTED only in HALTED (R153, R156). -/
structure VehicleLegal (v : Vehicle) : Prop where
  hold     : v.hold.isSome = (v.mode == .yard || v.mode == .quiet)
  bounded  : ∀ h, v.hold = some h → h ≤ Config.modeHoldTicks
  cause    : v.cause.isSome = (v.mode == .halted)
  run      : v.run ≤ 2
  asserted : v.asserted = true → v.mode = .halted

/-- The directory names each image once and holds at most 24 records (R126). -/
def DirectoryLegal (s : State) : Prop :=
  (s.store.images.map Image.id).Nodup ∧ s.store.images.length ≤ Config.maxImages

/-- The fixed numbers of the part: 32 slots (R1), 24 tags (R39), 16 profiles (Table 2.1), 20 flags on each port (R168). -/
structure ShapeLegal (s : State) : Prop where
  slots    : s.roster.length = Config.slots
  tags     : s.jobs.length = Config.tags
  profiles : s.profiles.length = 16
  flags    : ∀ p, (s.port p).flags.length = 20

/-- Where an exchange may be in flight at all: not in HALTED (R157), not before the start-up full sweeps (R84), not on a
DISABLED line, and on a FAULTED line as a recovery probe alone (R81). -/
def ExchangeLegal (s : State) : Prop :=
  ∀ l x, (s.line l).exchange = some x →
    s.halted = false ∧ s.linesRun = true ∧ (s.line l).state ≠ .disabled ∧
      ((s.line l).state = .faulted → x.purpose = .recoveryProbe)

/-- While the start-up settings load runs, the lines do not run yet and no tag of the scan is being read (R84, R177). A line
whose start-up full sweep has not ended is ACTIVE (R17, R177). -/
structure StartUpLegal (s : State) : Prop where
  stage     : s.settings.op = .loading → s.linesRun = false
  op        : s.settings.op = .loading → ∀ x, s.eng.op ≠ some (.tagRead x)
  class4    : s.settings.op = .loading → ∀ x, s.eng.class4 ≠ some (.tagRead x)
  suspended : s.settings.op = .loading → ∀ x, s.eng.suspended ≠ some (.tagRead x)
  sweeps    : ∀ l, (s.line l).startSweep = true → (s.line l).state = .active

/-- A SWAP whose frame is not wholly sent stands only in QUIET (R76, R107). -/
def SwapLegal (s : State) : Prop := ∀ l x, (s.line l).exchange = some x → swapUnsent x = true → s.veh.mode = .quiet

/-- In HALTED the Flash Engine has no operation in progress and no suspended erase (R150, R157). -/
def FlashStill (s : State) : Prop := s.halted = true → s.eng.op = none ∧ s.eng.suspended = none

/-! ### The extents and the requests of the store -/

/-- The extents that stand in a record's extent list as OWNED (R124): those of every record but a DAMAGED one, whose extents
have become DIRTY or BAD (R130, R134, R135). -/
def State.owned (s : State) : List Nat :=
  ((s.store.images.filter fun r => r.state != .damaged).map Image.extents).flatten

/-- The programs that the store has asked for and whose outcome it wants, the one in progress first and then those that wait,
in the order requested (R129, R134, R136, R145). -/
def State.outstanding (s : State) : List Program :=
  ((match s.eng.op with
    | some (.program p) => [p]
    | _ => []) ++ s.eng.programs).filter Program.live

/-- The images whose close check has a read in progress or waiting (R133). -/
def State.openChecks (s : State) : List Nat :=
  (match s.eng.op with
    | some (.checkRead c true) => [c.imageId]
    | _ => []) ++ s.eng.checks.map CheckRead.imageId

/-- The extents whose background erase is in progress, suspended or waiting (R138). -/
def State.erases (s : State) : List Nat :=
  ([s.eng.op, s.eng.suspended].filterMap fun o => match o with
    | some (.erase x) => some x
    | _ => none) ++ s.eng.class5.toList

/-- The program writes identity fields or a block of an image that is being received (R129). -/
def Program.intake (p : Program) : Prop := p.kind = .identity ∨ ∃ b tk, p.kind = .block b tk

/-- A program fits the record it is for: intake into a RECEIVING image, a block's while that block is WRITING (R129); a close
mark for a CHECKING image whose mark is pending (R134); a drop mark for a RETIRING one, or one dropped in CHECKING, whose
mark is pending (R135, R136). -/
def Program.fits (p : Program) (r : Image) : Prop :=
  match p.kind with
  | .identity => r.state = .receiving
  | .block b _ => r.state = .receiving ∧ r.blocks[b]? = some .writing
  | .closeMark => r.state = .checking ∧ r.markPending = true
  | .dropMark => r.markPending = true ∧ (r.state = .retiring ∨ r.state = .checking ∧ r.dropped = true)

/-- Two outstanding programs of one image are both intake, and of two blocks (R129, R134, R136). -/
def Program.apart (p q : Program) : Prop :=
  p.image = q.image → p.intake ∧ q.intake ∧ ∀ b c tk uk, p.kind = .block b tk → q.kind = .block c uk → b ≠ c

/-- The image store is as chapter 7 keeps it. Before the scan has ended it is empty; from then on every extent of 1 to 2047
is in exactly one of FREE, DIRTY, BAD and one record's extent list (R124, R140). The rest is what keeps it so: the scan reads
the tags in turn (R139) and class 4 holds nothing else but settings operations (Table 8.1), one background erase at a time is
asked for, of the dirty list's head (R138), each outstanding program and close-check read fits its image's record (R129, R133
to R137), identity fields go before a block of their image (R129), and received counts are the blocks' (R126, R129, R132). -/
structure StoreLegal (s : State) : Prop where
  blank     : s.linesRun = false → s.store = { images := [], free := [], dirty := [], bad := [] }
  pool      : s.linesRun = true →
    (s.store.free ++ s.store.dirty ++ s.store.bad ++ s.owned).Perm (List.range' 1 2047)
  scan      : ∀ x, s.eng.op = some (.tagRead x) ∨ s.eng.class4 = some (.tagRead x) →
    s.linesRun = false ∧ 1 ≤ x ∧ x ≤ 2047 ∧ s.startup.scanned.map Prod.fst = List.range' 1 (x - 1)
  oneScan   : ∀ x y, s.eng.op = some (.tagRead x) → s.eng.class4 ≠ some (.tagRead y)
  begun     : s.settings.op = .loading → s.startup.scanned = []
  four      : ∀ op, s.eng.class4 = some op →
    op = .settingsRead ∨ op = .settingsErase ∨ (∃ n, op = .settingsPage n) ∨ ∃ x, op = .tagRead x
  suspended : ∀ op, s.eng.suspended = some op → op.isErase = true
  erase     : s.erases.length ≤ 1 ∧ ∀ x ∈ s.erases, s.store.dirty.head? = some x
  wanted    : ∀ p ∈ s.eng.programs, p.live = true
  fits      : ∀ p ∈ s.outstanding, ∃ r, s.image p.image = some r ∧ p.fits r
  apart     : s.outstanding.Pairwise Program.apart
  follows   : ∀ pre p post, s.outstanding = pre ++ p :: post → p.kind = .identity →
    ∃ q ∈ post, q.image = p.image ∧ ∃ b tk, q.kind = .block b tk
  checks    : s.openChecks.Nodup ∧ ∀ id ∈ s.openChecks, ∃ r, s.image id = some r ∧ r.state = .checking ∧
    r.markPending = false
  counted   : ∀ r ∈ s.store.images, r.state = .receiving →
    r.blocks.length = r.length ∧ r.received = r.blocks.count .received
  whole     : ∀ r ∈ s.store.images, r.state = .checking ∨ r.state = .stored ∨ r.state = .retiring →
    r.received = r.length

/-! ### Frames of orders -/

/-- `t` is `s` but for one port. -/
def OnlyPort (s t : State) (p : Port) : Prop := t = s.modPort p fun _ => t.port p

/-- What taking one order does to a port's buffers (R161): the order is counted and the reply stands undelivered; the
order buffer, the output, the slot, the flags and the mask stay. -/
structure Replied (q q' : PortState) (r : Reply) : Prop where
  seq       : q'.seq = q.seq + 1
  reply     : q'.reply = some r
  delivered : q'.delivered = false
  order     : q'.order = q.order
  output    : q'.output = q.output
  slot      : q'.slot = q.slot
  flags     : q'.flags = q.flags
  mask      : q'.mask = q.mask

/-- An order answered with a reply and nothing else (R161, R162). -/
def Answered (s t : State) (p : Port) (r : Reply) : Prop := OnlyPort s t p ∧ Replied (s.port p) (t.port p) r

/-- What the manual says of an order before its own checks: the port it is given on, the ports it is permitted on (Table
10.1), whether it is served on every port during the start-up phase, whether it is answered HALTED in HALTED (R164), and
whether it is a long order (R165). -/
structure OrderTerms where
  port      : Port
  permitted : List Port
  early     : Bool
  stopped   : Bool
  long      : Bool
  deriving DecidableEq, Repr

/-- The terms of each order, by Table 10.1, R164 and R165; none for a command that is no order. -/
def orderTerms : Instr → Option OrderTerms
  | .openImage p _ _ _ _ _ _ _ => some ⟨p, [.Y, .S], false, true, false⟩
  | .writeBlock p _ _ _ => some ⟨p, [.Y, .S], false, true, false⟩
  | .closeImage p _ => some ⟨p, [.Y, .S], false, true, true⟩
  | .dropImage p _ => some ⟨p, [.Y, .S], false, true, false⟩
  | .listImages p => some ⟨p, [.Y, .S], false, false, false⟩
  | .readImage p _ _ => some ⟨p, [.Y, .S], false, false, false⟩
  | .setProfile p _ _ => some ⟨p, [.Y], false, false, false⟩
  | .setRule p _ _ => some ⟨p, [.Y], false, false, false⟩
  | .removeRule p _ => some ⟨p, [.Y], false, false, false⟩
  | .readPlan p => some ⟨p, [.Y, .S], false, false, false⟩
  | .pinUnit p _ _ _ _ => some ⟨p, [.Y, .S], false, false, false⟩
  | .unpinUnit p _ => some ⟨p, [.Y, .S], false, false, false⟩
  | .releaseUnit p _ => some ⟨p, [.S], false, false, false⟩
  | .readUnit p _ => some ⟨p, [.Y, .V, .S], false, false, false⟩
  | .readRoster p _ => some ⟨p, [.Y, .V, .S], false, false, false⟩
  | .sweepNow p => some ⟨p, [.Y, .S], false, false, true⟩
  | .setMode p _ => some ⟨p, [.V], false, false, false⟩
  | .setDeparture p _ _ => some ⟨p, [.V], false, false, false⟩
  | .powerWarning p => some ⟨p, [.V], false, false, false⟩
  | .setLine p _ _ _ => some ⟨p, [.Y], false, false, false⟩
  | .readLine p _ _ => some ⟨p, [.Y, .S], false, false, false⟩
  | .resetLine p _ => some ⟨p, [.Y, .S], false, false, false⟩
  | .setTime p _ => some ⟨p, [.Y], false, false, false⟩
  | .readStatus p => some ⟨p, [.Y, .V, .S], true, false, false⟩
  | .readEvents p => some ⟨p, [.Y, .V, .S], false, false, false⟩
  | .setEventMask p _ => some ⟨p, [.Y, .V, .S], false, false, false⟩
  | .saveSettings p => some ⟨p, [.Y], false, true, true⟩
  | .reloadSettings p => some ⟨p, [.Y], false, true, true⟩
  | .reset p => some ⟨p, [.Y], false, false, true⟩
  | _ => none

/-- The start-up phase stands in the order's way (R164): every order on the Yard and Service ports but READ STATUS. -/
def OrderTerms.heldByStartUp (o : OrderTerms) (s : State) : Bool := s.starting && o.port != .V && !o.early

/-- The command is an order, and it passes every check that stands before its own (R162 to R166). -/
def accepts (s : State) (c : Instr) : Bool :=
  match orderTerms c with
  | none => false
  | some o =>
    !s.armed o.port && o.permitted.contains o.port && !o.heldByStartUp s && !(s.halted && o.stopped)
      && !(o.long && (s.port o.port).slot.isSome)

/-- An order's reply is placed (R161): the order is counted and its reply replaces the buffer's. -/
def State.replied (s : State) (p : Port) (st : Status) (d : ReplyData) : State := (s.countOrder p).answer p st d

/-- An event has been posted once to every port (R168): its flag SET, its count one higher up to 255, its qualifier the
event's. -/
def Posted (s t : State) (e : Event) : Prop :=
  ∀ p (f : EventFlag), (s.port p).flags[e.index]? = some f →
    (t.port p).flags[e.index]? = some { isSet := true, count := min 255 (f.count + 1), qual := some e }

/-- The flag of an event stands as it did on every port. -/
def NotPosted (s t : State) (i : Nat) : Prop := ∀ p, (t.port p).flags[i]? = (s.port p).flags[i]?

/-! ### What settles at the end of a step -/

/-- The update states that resolution works on (R33): not SWITCHING, FALLBACK or HELD. -/
def UpdateState.resolvable : UpdateState → Bool
  | .inStep => true
  | .pending => true
  | .loading => true
  | .staged => true
  | .switching => false
  | .fallback => false
  | .held => false

/-- What resolution, job creation, an opening and the freeing of a record do to a roster entry (R32 to R38, R46, R137):
its target, note, update state, refused image and owed resolution may change, and nothing else. -/
structure EntrySettled (e f : Entry) : Prop where
  frame   : f = { e with target := f.target, note := f.note, state := f.state, refused := f.refused, owed := f.owed }
  state   : f.state = e.state ∨ (e.state.resolvable = true ∧ f.state.resolvable = true)
  target  : e.state.resolvable = false → f.target = e.target ∧ f.note = e.note
  refused : f.refused = e.refused ∨ f.refused = none

/-- The same of a slot: it stays occupied or free. -/
def SlotSettled : Option Entry → Option Entry → Prop
  | none, none => True
  | some e, some f => EntrySettled e f
  | none, some _ => False
  | some _, none => False

/-- What job handling and the arbiter's choice do to a line engine: its settings, state, failure run, charges, full-sweep
standing and recovery timer stay, its statistics but for frames sent, and a full sweep in progress. -/
structure LineSettled (e f : LineEngine) : Prop where
  settings      : f.settings = e.settings
  state         : f.state = e.state
  run           : f.run = e.run
  charges       : f.charges = e.charges
  fullDue       : f.fullDue = e.fullDue
  startSweep    : f.startSweep = e.startSweep
  recoveryTimer : f.recoveryTimer = e.recoveryTimer
  stats         : f.stats = { e.stats with framesSent := f.stats.framesSent }
  full          : ∀ w, e.sweep = some w → w.kind = .full → f.sweep = some w

/-- What a settling step does to a port: it may post STARTED, STAGED and SWEEP_DONE (flags 0, 5 and 13), and empty a slot
whose SWEEP NOW has no outstanding part. -/
structure PortSettled (p q : PortState) : Prop where
  frame  : q = { p with flags := q.flags, slot := q.slot }
  length : q.flags.length = p.flags.length
  others : ∀ i, i ≠ 0 → i ≠ 5 → i ≠ 13 → q.flags[i]? = p.flags[i]?
  kept   : ∀ (i : Nat) (f : EventFlag), p.flags[i]? = some f → f.isSet = true →
             ∃ g : EventFlag, q.flags[i]? = some g ∧ g.isSet = true
  slot   : q.slot = p.slot ∨ (q.slot = none ∧ ∃ a b, p.slot = some (.sweepNow (.ended a) (.ended b)))

/-- What a settling step does to the store: RETIRING records may be freed, their extents becoming DIRTY or BAD, and job
counts may change. -/
structure StoreSettled (a b : Store) : Prop where
  free  : b.free = a.free
  dirty : a.dirty <+: b.dirty
  bad   : a.bad <+: b.bad
  ids   : (b.images.map Image.id).Sublist (a.images.map Image.id)
  from_ : ∀ r, r ∈ b.images → ∃ q, q ∈ a.images ∧ r = { q with jobCount := r.jobCount }
  kept  : (a.images.map Image.id).Nodup → ∀ q, q ∈ a.images → q.state ≠ .retiring →
            ∃ n, { q with jobCount := n } ∈ b.images

/-- `t` is what `s` may settle into: the plan's resolution, the jobs, the arbiters' choices and the requests to the flash
follow from a change, and everything else stands. -/
structure Settled (s t : State) : Prop where
  pending     : t.pending = s.pending
  now         : t.now = s.now
  time        : t.time = s.time
  guardTime   : t.guardTime = s.guardTime
  veh         : t.veh = s.veh
  startup     : t.startup = s.startup ∨ (s.startup.stage = .sweeps ∧ t.startup = { s.startup with stage := .running })
  roster      : List.Forall₂ SlotSettled s.roster t.roster
  heldSerials : t.heldSerials = s.heldSerials
  profiles    : t.profiles = s.profiles
  rules       : t.rules = s.rules
  yardPins    : t.yardPins = s.yardPins
  servicePins : t.servicePins = s.servicePins
  jobs        : t.jobs.length = s.jobs.length
  lineA       : LineSettled s.lineA t.lineA
  lineB       : LineSettled s.lineB t.lineB
  store       : StoreSettled s.store t.store
  hold        : t.eng.hold = s.eng.hold
  flash       : t.flash = s.flash
  flashUse    : t.flashUse = s.flashUse
  settings    : t.settings = s.settings
  portY       : PortSettled s.portY t.portY
  portV       : PortSettled s.portV t.portV
  portS       : PortSettled s.portS t.portS

/-! ### What the work of a step leaves as it was -/

/-- What work leaves of a port: the orders taken, the order buffer, the mask and the number of flags. -/
structure PortWork (p q : PortState) : Prop where
  seq   : q.seq = p.seq
  order : q.order = p.order
  mask  : q.mask = p.mask
  flags : q.flags.length = p.flags.length

/-- What the work of a step leaves as it was. -/
structure Work (s t : State) : Prop where
  pending   : t.pending = s.pending
  now       : t.now = s.now
  time      : t.time = s.time
  guardTime : t.guardTime = s.guardTime
  veh       : t.veh = s.veh
  profiles  : t.profiles = s.profiles
  rules     : t.rules = s.rules
  yardPins  : t.yardPins = s.yardPins
  servicePins : t.servicePins = s.servicePins
  flash     : t.flash = s.flash
  flashUse  : t.flashUse = s.flashUse
  hold      : t.eng.hold = s.eng.hold
  slots     : t.roster.length = s.roster.length
  tags      : t.jobs.length = s.jobs.length
  settingsA : t.lineA.settings = s.lineA.settings
  settingsB : t.lineB.settings = s.lineB.settings
  ids       : (t.store.images.map Image.id).Sublist (s.store.images.map Image.id)
  portY     : PortWork s.portY t.portY
  portV     : PortWork s.portV t.portV
  portS     : PortWork s.portS t.portS

/-! ### States with nothing left to settle -/

/-- No entry waits for a job, no RETIRING record waits to be freed, no roster sweep has lost its place, no SWEEP NOW has
come to its end, and the start-up phase is over: only the arbiters and the flash are left to choose. -/
structure Calm (s : State) : Prop where
  retired : s.retired = none
  waiting : s.freeTag = none ∨ s.waitingSlot = none
  sweepA  : s.tidySweep .A = s
  sweepB  : s.tidySweep .B = s
  covers  : ∀ p a b, (s.port p).slot ≠ some (.sweepNow (.ended a) (.ended b))
  running : s.startup.stage = .running

/-- The arbiter of a line has not been asked to choose. -/
def Asleep (s : State) (l : Line) : Prop := (s.line l).wake = false

/-- The line may act (R74, R84): the mode is not HALTED, the start-up full sweeps have begun, and no exchange is in
flight. -/
structure LineFree (s : State) (l : Line) : Prop where
  mode     : s.halted = false
  begun    : s.linesRun = true
  exchange : (s.line l).exchange = none

/-- No record is RETIRING, so that no record waits to be freed (R137). -/
def NoRetiring (s : State) : Prop := ∀ r, r ∈ s.store.images → r.state ≠ .retiring

/-- A tag stands in no READY order and in no class queue: its job is open and not READY (R42, R43). -/
def Unlisted (s : State) (tag : Nat) : Prop := ∀ l, tag ∉ (s.line l).ready ∧ tag ∉ (s.line l).queued

/-- The flash is busy or held: its arbiter starts nothing (R143, R144). -/
def FlashBusy (s : State) : Prop := s.eng.op.isSome = true ∨ s.eng.hold = true

/-- The other line. -/
def otherLine : Line → Line
  | .A => .B
  | .B => .A

/-- An operation on the flash writes or erases the byte at an address. -/
def FlashOp.covers (op : FlashOp) (a : Nat) : Bool :=
  op.writes.any fun w => decide (w.1 ≤ a) && decide (a < w.1 + w.2)

/-! ### The job pool -/

/-- The other line's collections do not hold a tag (R42, R43). -/
def OnlyOn (s : State) (l : Line) (tag : Nat) : Prop :=
  tag ∉ (s.line (otherLine l)).openSet ∧ tag ∉ (s.line (otherLine l)).ready ∧ tag ∉ (s.line (otherLine l)).queued

/-- A line's open set is as R43 has it: it names each of its jobs once, each of a unit of the line, and in no class queue of
either line; only READY jobs stand in the READY order (R50). -/
structure OpenLegal (s : State) (l : Line) : Prop where
  once  : (s.line l).openSet.Nodup
  ready : ∀ tag j, tag ∈ (s.line l).ready → s.job tag = some j → j.state = .ready
  job   : ∀ tag, tag ∈ (s.line l).openSet →
    ∃ j e, s.job tag = some j ∧ s.entry j.slot = some e ∧ e.line = l ∧ OnlyOn s l tag ∧ tag ∉ (s.line l).queued

/-- The tags in a line's collections are those of jobs whose units are on the line (R42, R43). -/
def TagsStand (s : State) (l : Line) : Prop :=
  ∀ tag, tag ∈ (s.line l).openSet ∨ tag ∈ (s.line l).ready ∨ tag ∈ (s.line l).queued →
    tag < Config.tags ∧ ∃ j e, s.job tag = some j ∧ s.entry j.slot = some e ∧ e.line = l

/-- The number of jobs that name an image (R41). -/
def State.jobsNaming (s : State) (id : Nat) : Nat := s.jobs.countP fun o => o.any fun j => j.imageId == id

/-- An exchange of a job is one of the job's state, and a burst lies within its image (R46, R49 to R51). -/
def FlightFits (p : Purpose) (j : Job) (r : Image) : Prop :=
  match p with
  | .load _ _ => j.state = .starting
  | .burst _ first count => j.state = .sending ∧ first + count ≤ r.length
  | .check _ => j.state = .sending
  | .poll _ => j.state = .released ∨ j.state = .verifying
  | _ => True

/-- The job pool and the lines' collections are as R39 to R43 keep them. Each job belongs to the entry of its slot and
serial, PENDING with a job QUEUED and never opened, or LOADING with one ever opened, and no entry has two (R40); its image is
in the directory, its next block within the image (R39, R41), and each record's job count is the number of jobs that name it
(R41). A QUEUED job's tag stands once, in the queue of its class on its own line, an open job's in that line's open set, and
a READY job's in the READY order too (R42, R43, R50); at most the open limit of jobs are open on a line (R43). An exchange
for a job is on its line and of its state. Before the start-up full sweeps the roster is empty (R177). -/
structure PoolLegal (s : State) : Prop where
  empty   : s.linesRun = false → ∀ i, s.entry i = none
  owner   : ∀ tag j, s.job tag = some j → ∃ e, s.entry j.slot = some e ∧ e.serial = j.serial ∧
    (e.state = .pending ∧ j.state = .queued ∧ j.everOpened = false ∨ e.state = .loading ∧ j.everOpened = true)
  single  : ∀ m n i j, s.job m = some i → s.job n = some j → i.slot = j.slot → m = n
  loading : ∀ i e, s.entry i = some e → e.state = .loading → ∃ tag j, s.job tag = some j ∧ j.slot = i
  image   : ∀ tag j, s.job tag = some j → ∃ r, s.image j.imageId = some r ∧
    (r.state = .stored ∨ r.state = .retiring) ∧ j.next ≤ r.length
  counts  : ∀ r ∈ s.store.images, r.jobCount = s.jobsNaming r.id
  place   : ∀ tag j e, s.job tag = some j → s.entry j.slot = some e →
    (j.state = .queued → tag ∈ (s.line e.line).queue j.prio) ∧
      (j.state ≠ .queued → tag ∈ (s.line e.line).openSet) ∧ (j.state = .ready → tag ∈ (s.line e.line).ready)
  queued  : ∀ l tag j, tag ∈ (s.line l).queued → s.job tag = some j → j.state = .queued
  once    : ∀ l, (s.line l).queued.Nodup ∧ (s.line l).ready.Nodup
  tags    : ∀ l, TagsStand s l
  sets    : ∀ l, OpenLegal s l
  limit   : ∀ l, (s.line l).openSet.length ≤ (s.line l).settings.openLimit
  flight  : ∀ l x tag, (s.line l).exchange = some x → x.purpose.tag = some tag → tag ∈ (s.line l).openSet ∧
    ∀ j r, s.job tag = some j → s.image j.imageId = some r → FlightFits x.purpose j r

/-! ### Exchanges and their jobs -/

/-- An exchange of a line stands with its last frame sent: it waits for a reply (R66). -/
def Awaits (s : State) (l : Line) (x : Exchange) : Prop := (s.line l).exchange = some x ∧ x.phase = .awaiting

/-- No exchange of a line waits for a reply: the one that did has ended, and none begun since has come so far. -/
def ReplyTaken (s : State) (l : Line) : Prop := ∀ y, (s.line l).exchange = some y → y.phase ≠ .awaiting

/-- A job with its entry and its image, as an exchange for it finds them: the entry carries the job's serial. -/
structure JobStands (s : State) (tag : Nat) (j : Job) (e : Entry) (img : Image) : Prop where
  job    : s.job tag = some j
  entry  : s.entry j.slot = some e
  image  : s.image j.imageId = some img
  serial : e.serial = j.serial

/-- A job after a step that makes it READY: it is in the READY order, or its line has already served it (R50, R75). -/
def ReadyOrServed (t : State) (l : Line) (tag : Nat) (k : Job) : Prop :=
  k.state = .ready ∧ tag ∈ (t.line l).ready ∨ k.state = .sending

/-! ### Profiles and resolution -/

/-- A class code's profile (R11): the lowest used one of 1 to 15 that carries it, else profile 0. -/
def ProfileFor (profiles : List Profile) (cls i : Nat) : Prop :=
  let claims (k : Nat) := ∃ p, profiles[k]? = some p ∧ p.used = true ∧ p.cls = cls
  1 ≤ i ∧ i ≤ 15 ∧ claims i ∧ (∀ k, 1 ≤ k → k < i → ¬ claims k) ∨ i = 0 ∧ ∀ k, 1 ≤ k → k ≤ 15 → ¬ claims k

/-- One version is lower than another: major first, then minor, then build (R20). -/
def Lower (a b : Version) : Prop :=
  a.major < b.major ∨ a.major = b.major ∧ (a.minor < b.minor ∨ a.minor = b.minor ∧ a.build < b.build)

/-- A unit retains an image, with a version: it is LOADING or STAGED, and its target names the image (R35). -/
def Retains (e : Entry) (id : Nat) (v : Version) : Prop :=
  (e.state = .loading ∨ e.state = .staged) ∧ ∃ g, e.target = some g ∧ g.imageId = id ∧ g.version = v

/-- The image that a pin or a rule names passes the tests on it, with a version: it is retained, or it is STORED, is for the
unit's class and hardware, fits its banks and is not its refused image (R34, R35). -/
def ImagePasses (s : State) (e : Entry) (id : Nat) (v : Version) : Prop :=
  Retains e id v ∨ (∀ w, ¬ Retains e id w) ∧ ∃ r, s.image id = some r ∧ r.state = .stored ∧ r.version = v ∧
    r.cls = e.classCode ∧ r.hwMin ≤ e.hwRev ∧ e.hwRev ≤ r.hwMax ∧ r.length ≤ e.capacity ∧ e.refused ≠ some id

/-- The image that a pin or a rule names fails a test on it, with the note of the first that it fails: NO_RULE when it is not
usable (R34, R35). -/
def ImageFails (s : State) (e : Entry) (id : Nat) (n : TargetNote) : Prop :=
  (∀ w, ¬ Retains e id w) ∧
  ((∀ r, s.image id = some r → r.state ≠ .stored) ∧ n = .noRule ∨
    ∃ r, s.image id = some r ∧ r.state = .stored ∧
      ((r.cls ≠ e.classCode ∨ e.hwRev < r.hwMin ∨ r.hwMax < e.hwRev) ∧ n = .incompatible ∨
        (r.cls = e.classCode ∧ r.hwMin ≤ e.hwRev ∧ e.hwRev ≤ r.hwMax) ∧
          (e.capacity < r.length ∨ e.refused = some id) ∧ n = .tooLarge))

/-- A plan rule is for the unit's class and hardware (R35). -/
def RuleMatches (e : Entry) (r : PlanRule) : Prop := r.cls = e.classCode ∧ r.hwMin ≤ e.hwRev ∧ e.hwRev ≤ r.hwMax

/-- A plan rule gives a unit its target, with a version (R35). -/
def RuleGives (s : State) (e : Entry) (r : PlanRule) (v : Version) : Prop :=
  RuleMatches e r ∧ ImagePasses s e r.imageId v ∧ (r.downgrade = true ∨ ∀ w, e.runningVersion = some w → ¬ Lower v w)

/-- A plan rule is skipped for a unit with a note (R35). -/
def RuleNotes (s : State) (e : Entry) (r : PlanRule) (n : TargetNote) : Prop :=
  RuleMatches e r ∧
  (ImageFails s e r.imageId n ∧ n ≠ .noRule ∨
    n = .noDowngrade ∧ r.downgrade = false ∧
      ∃ v w, ImagePasses s e r.imageId v ∧ e.runningVersion = some w ∧ Lower v w)

/-- What resolution chooses for a unit, a target or none and the note (R34, R35): the service pin decides, else the yard pin,
else the first rule in list order that gives a target; with none, the note is that of the first rule skipped with one. -/
def Chosen (s : State) (e : Entry) (g : Option Target) (n : TargetNote) : Prop :=
  let pin := if e.servicePin = none then e.yardPin else e.servicePin
  (∀ p, pin = some p →
    (∃ v, ImagePasses s e p.imageId v ∧ n = .noNote ∧
      g = some { imageId := p.imageId, version := v, prio := p.prio, origin := .pin, noRetry := p.noRetry }) ∨
    ImageFails s e p.imageId n ∧ g = none) ∧
  (pin = none →
    (∃ (k : Nat) (r : PlanRule) (v : Version), s.rules[k]? = some r ∧ RuleGives s e r v ∧
      (∀ (j : Nat) (q : PlanRule) w, j < k → s.rules[j]? = some q → ¬ RuleGives s e q w) ∧ n = .noNote ∧
      g = some { imageId := r.imageId, version := v, prio := r.prio, origin := .plan, noRetry := false }) ∨
    (∀ q w, q ∈ s.rules → ¬ RuleGives s e q w) ∧ g = none ∧
      ((∃ (k : Nat) (r : PlanRule), s.rules[k]? = some r ∧ RuleNotes s e r n ∧
        ∀ (j : Nat) (q : PlanRule) m, j < k → s.rules[j]? = some q → ¬ RuleNotes s e q m) ∨
      (∀ q m, q ∈ s.rules → ¬ RuleNotes s e q m) ∧ n = .noRule))

/-- The update state that a target gives a unit (R36), PENDING standing for LOADING too. -/
def Gives (e : Entry) : Option Target → UpdateState → Prop
  | none, st => st = .inStep
  | some g, st =>
    e.runningVersion = some g.version ∧ st = .inStep ∨
    e.runningVersion ≠ some g.version ∧ e.inactiveRecord = { version := some g.version, valid := true } ∧ st = .staged ∨
    e.runningVersion ≠ some g.version ∧ e.inactiveRecord ≠ { version := some g.version, valid := true } ∧ st = .pending

/-- Resolution has run over `u` for the unit in slot `i`, which stood there as `e` (R31 to R36): a unit in IN_STEP or
PENDING, and one in LOADING or STAGED while no record waits to be freed, has the target and the note that its pins or the
rules give it, and stands as R36 says of that target: in IN_STEP or STAGED, or in PENDING or LOADING, the latter said of a
unit that was so or has no job. -/
def ResolvedAt (u t : State) (i : Nat) (e : Entry) : Prop :=
  e.state = .inStep ∨ e.state = .pending ∨ (e.state = .loading ∨ e.state = .staged) ∧ NoRetiring u →
    ∃ f st, t.entry i = some f ∧ Chosen u e f.target f.note ∧ Gives e f.target st ∧ (st ≠ .pending → f.state = st) ∧
      (e.state = .pending ∨ e.state = .loading ∨ (∀ tag j, u.job tag = some j → j.slot ≠ i) → st = .pending →
        f.state = .pending ∨ f.state = .loading)

/-- Resolution has run over `u` for all units (R32). -/
def Resolved (u t : State) : Prop := ∀ i e, i < Config.slots → u.entry i = some e → ResolvedAt u t i e

/-! ### Jobs that end, and jobs that resolution keeps -/

/-- A job with nothing of an earlier job's progress (R44, R59): QUEUED and never opened, in no open set and with no exchange,
or opened since by its line's arbiter, its first LOAD in flight (R46). -/
structure FreshJob (t : State) (tag : Nat) (k : Job) : Prop where
  start : k.next = 0 ∧ k.wait = none ∧ k.pollDue = none ∧ k.parking = false ∧ k.retriesUsed = 0 ∧ k.busyElapsed = 0 ∧
    k.busyLimit = 0
  state : k.state = .queued ∧ k.everOpened = false ∧
      (∀ l, tag ∉ (t.line l).openSet ∧ ∀ x, (t.line l).exchange = some x → x.purpose.tag ≠ some tag) ∨
    k.state = .starting ∧ ∃ l x mode, (t.line l).exchange = some x ∧ x.purpose = .load tag mode ∧ x.retries = 0

/-- The job that a tag held is gone (R58): the tag is in no READY order, and is free and in no collection and no exchange, or
holds a fresh job. -/
structure JobGone (t : State) (tag : Nat) : Prop where
  fresh : ∀ k, t.job tag = some k → FreshJob t tag k
  free  : t.job tag = none → ∀ l, tag ∉ (t.line l).openSet ∧ tag ∉ (t.line l).queued ∧
    ∀ x, (t.line l).exchange = some x → x.purpose.tag ≠ some tag
  ready : ∀ l, tag ∉ (t.line l).ready

/-- The number of jobs that name an image and stand in `t` at a tag that was free in `s`, or at the tag freed since: the jobs
created (R44). -/
def createdNaming (s t : State) (tag id : Nat) : Nat :=
  ((List.range Config.tags).filter fun n =>
    (n == tag || (s.job n).isNone) && (t.job n).any fun k => k.imageId == id).length

/-- One job has been removed (R58): it is gone, its image's job count has fallen by 1 and risen by 1 for each job created
since (R41, R44), and every other job stands. -/
structure JobEnded (s t : State) (tag : Nat) (j : Job) : Prop where
  gone   : JobGone t tag
  count  : PoolLegal s → NoRetiring s → ∀ r, s.image j.imageId = some r → ∃ n,
    t.image j.imageId = some { r with jobCount := n } ∧ n + 1 = r.jobCount + createdNaming s t tag j.imageId
  others : PoolLegal s → NoRetiring s → ∀ n i, n ≠ tag → s.job n = some i → ∃ k, t.job n = some k ∧ k.slot = i.slot ∧
    k.serial = i.serial ∧ k.imageId = i.imageId

/-- The LOADING entry of a slot, left as `e` but for its state when its job was removed, is PENDING, or LOADING again with a
job opened since (R45, R59). Where its target is not STORED, or resolution is asked for, it is as resolution leaves a PENDING
entry (R38, R45). -/
def FellBack (s t : State) (slot : Nat) (e : Entry) (asked : Bool) : Prop :=
  e.state = .loading → NoRetiring s → DirectoryLegal s →
    let unusable := ∃ g, e.target = some g ∧ ∀ r, s.image g.imageId = some r → r.state ≠ .stored
    let p : Entry := { e with state := .pending }
    (unusable ∨ asked = true → ResolvedAt s t slot p) ∧
      (¬ unusable → asked = false → t.entry slot = some p ∨
        t.entry slot = some e ∧ ∃ n k, t.job n = some k ∧ k.slot = slot ∧ k.state = .starting)

/-- One element stands before another in a list. -/
def Before (xs : List Nat) (a b : Nat) : Prop := ∃ p q r, xs = p ++ a :: q ++ b :: r

/-- A tag stands in a class queue as it did, its job the same and of the same class. -/
def InPlace (u t : State) (l : Line) (n b : Nat) : Prop :=
  b ∈ (u.line l).queue n ∧ b ∈ (t.line l).queue n ∧ ∃ i k, u.job b = some i ∧ t.job b = some k ∧ k.slot = i.slot ∧
    k.imageId = i.imageId ∧ k.prio = i.prio

/-- A job of a line has been kept, with a priority class and a no-retry flag (R37): open or parked, with its progress and its
exchange; its state stands, unless the arbiter has opened or served it since. A QUEUED job stands in the queue of its class;
one whose class has changed stands behind the tags that stood there when it was never opened, and before them when it had
parked. -/
structure JobKept (u t : State) (l : Line) (tag : Nat) (j : Job) (prio : Nat) (noRetry : Bool) : Prop where
  job   : ∃ k, t.job tag = some k ∧
    k = { j with prio := prio, noRetry := noRetry, state := k.state, deferred := k.deferred, everOpened := k.everOpened
                 retriesUsed := k.retriesUsed, busyElapsed := k.busyElapsed } ∧
    (k.state = j.state ∧ k.everOpened = j.everOpened ∨ j.state = .queued ∧ k.state = .starting ∨
      j.state = .ready ∧ k.state = .sending)
  open_ : j.state ≠ .queued → tag ∈ (t.line l).openSet ∧
    ∀ x, (u.line l).exchange = some x → x.purpose.tag = some tag → (t.line l).exchange = some x
  queue : ∀ k, t.job tag = some k → k.state = .queued → tag ∈ (t.line l).queue prio ∧
    (prio ≠ j.prio → ∀ b, InPlace u t l prio b →
      (j.everOpened = false → Before ((t.line l).queue prio) b tag) ∧
        (j.everOpened = true → Before ((t.line l).queue prio) tag b))

/-- What resolution over `u` has done to the job of the unit in slot `i`, which stood there as `e` (R37): kept when the
target leaves the unit PENDING or LOADING and names the job's image, a LOADING unit staying so; removed otherwise. -/
def JobResolved (u t : State) (i : Nat) (e : Entry) : Prop :=
  ∀ tag j g n, u.job tag = some j → j.slot = i → Chosen u e g n →
    (∀ q, g = some q → Gives e g .pending → q.imageId = j.imageId → JobKept u t e.line tag j q.prio q.noRetry ∧
      (e.state = .loading → ∃ f, t.entry i = some f ∧ f.state = .loading)) ∧
    ((∀ q, g = some q → Gives e g .pending → q.imageId ≠ j.imageId) → JobGone t tag)

/-- The tags that stand in their queues as they did keep their order, and each image's job count is the number of jobs that
name it (R41, R42). -/
def QueuesKept (u t : State) : Prop :=
  (∀ l n a b, InPlace u t l n a → InPlace u t l n b → Before ((u.line l).queue n) a b → Before ((t.line l).queue n) a b) ∧
    ∀ r, r ∈ t.store.images → r.jobCount = t.jobsNaming r.id

/-- What resolution for all units has done to the jobs (R32, R37). -/
def JobsResolved (u t : State) : Prop :=
  NoRetiring u → PoolLegal u → QueuesKept u t ∧ ∀ i e, i < Config.slots → u.entry i = some e → JobResolved u t i e

/-- What resolution for one unit has done to the jobs (R31, R37): those of the other units stand. -/
def JobResolvedAlone (u t : State) (i : Nat) (e : Entry) : Prop :=
  NoRetiring u → PoolLegal u → QueuesKept u t ∧ JobResolved u t i e ∧
    ∀ tag j f, u.job tag = some j → j.slot ≠ i → u.entry j.slot = some f → JobKept u t f.line tag j j.prio j.noRetry

/-- What a unit fault does (R61): JOB_FAILED is posted with the kind of fault, the job is removed (R58), and the unit, which
the fault left as `e'`, is charged 1 and falls back from LOADING, resolved when `asked` (R38); a third charge makes it HELD
(R4). -/
structure UnitFaulted (s t : State) (tag : Nat) (j : Job) (e' : Entry) (k : FaultKind) (asked : Bool) : Prop where
  posted  : Posted s t (.jobFailed j.slot tag j.imageId (.unitFault k) j.next)
  ended   : JobEnded s t tag j
  charged : e'.failCount < 2 →
    FellBack s t j.slot { e' with failCount := e'.failCount + 1 } asked ∧
    ∃ f, t.entry j.slot = some f ∧ EntrySettled { e' with failCount := e'.failCount + 1 } f
  held    : 2 ≤ e'.failCount → ∃ f, t.entry j.slot = some f ∧ f.state = .held ∧ f.failCount = 3 ∧ f.target = none ∧
    j.serial ∈ t.heldSerials ∧ Posted s t (.unitHeld j.slot)

/-! ### Sweeps -/

/-- A line's part of a SWEEP NOW after what has happened to it: an outstanding part ends with an outcome (R17). -/
def partAfter (c : Cover) (o : Option SweepOutcome) : Cover :=
  match c, o with
  | .outstanding, some x => .ended x
  | c, _ => c

/-- The parts of the lines end in the outstanding SWEEP NOW of each port (R17, R165, R168): where none is outstanding any
more, SWEEP_DONE is posted to that port with the outcomes of its lines and the slot is empty; where one is, the order stands
with its parts so; and no other port is posted to. -/
def SweepParts (s t : State) (o : Line → Option SweepOutcome) : Prop :=
  ∀ p (f : EventFlag), (s.port p).flags[13]? = some f →
    (∀ a b, (s.port p).slot = some (.sweepNow a b) →
      (∀ x y, partAfter a (o .A) = .ended x → partAfter b (o .B) = .ended y → (t.port p).slot = none ∧
        (t.port p).flags[13]? =
          some { isSet := true, count := min 255 (f.count + 1), qual := some (.sweepDone x y) }) ∧
      (partAfter a (o .A) = .outstanding ∨ partAfter b (o .B) = .outstanding →
        (t.port p).slot = some (.sweepNow (partAfter a (o .A)) (partAfter b (o .B))) ∧
          (t.port p).flags[13]? = some f)) ∧
    ((∀ a b, (s.port p).slot ≠ some (.sweepNow a b)) → (t.port p).flags[13]? = some f)

/-- The outcome of one line's part, and of no other's. -/
def onLine (l : Line) (o : SweepOutcome) : Line → Option SweepOutcome := fun m => if m = l then some o else none

/-- The start-up full sweep of a line, if it was still to end, has ended (R177, step 5): when no other is left, the phase is
RUNNING and STARTED is posted with the two notes; otherwise the phase stands and nothing is posted. -/
def StartUpMoves (s t : State) (l : Line) : Prop :=
  (t.line l).startSweep = false ∧
    (s.startup.stage = .sweeps → (s.line (otherLine l)).startSweep = false →
      t.startup = { s.startup with stage := .running } ∧
        Posted s t (.started s.startup.intakeLost s.startup.loadFailed)) ∧
    (s.startup.stage ≠ .sweeps ∨ (s.line (otherLine l)).startSweep = true → t.startup = s.startup ∧ NotPosted s t 0)

/-- A full sweep of a line has reached the end of address 47 (R12, R13, R17, R177): the line's parts are COMPLETE, its
start-up sweep has ended, and a roster sweep starts if one was due. -/
def FullSweepEnded (s t : State) (l : Line) : Prop :=
  SweepParts s t (onLine l .complete) ∧ StartUpMoves s t l ∧
    ((s.line l).rosterDue = false → (t.line l).sweep = none) ∧ ∀ w, (t.line l).sweep = some w → w.kind = .roster

/-- The fourth failure in a row has made a line FAULTED (R78, R80): no charge, sweep, exchange or sweep timer is left, the
recovery timer runs for the sweep interval, LINE_FAULT is posted, and the line's start-up sweep has ended (R177). -/
structure LineFaulted (s t : State) (l : Line) : Prop where
  state         : (t.line l).state = .faulted
  run           : (t.line l).run = 4
  charges       : (t.line l).charges = []
  sweep         : (t.line l).sweep = none
  exchange      : (t.line l).exchange = none
  sweepTimer    : (t.line l).sweepTimer = none
  recoveryTimer : (t.line l).recoveryTimer =
    some (s.now + 10000 * [2, 5, 10, 20].getD (s.line l).settings.interval 20)
  posted        : Posted s t (.lineFault l)
  started       : StartUpMoves s t l

/-- A line has had a good reply (R67, R79, R83): good replies one higher, the failure run 0 and no charge pending. -/
def GoodReply (s t : State) (l : Line) : Prop :=
  (t.line l).stats = { (s.line l).stats with
    goodReplies := min 65535 ((s.line l).stats.goodReplies + 1), framesSent := (t.line l).stats.framesSent } ∧
  (t.line l).run = 0 ∧ (t.line l).charges = [] ∧ ReplyTaken t l

/-- A command that ends an exchange's attempt NO_REPLY or BAD (R66, R67): the cause, and the line's statistics after it, a
retry's own count apart. A broken frame is one whose length was not complete (R64); what stands between the header and the
CRC of a frame that passes every check before is judged by its kind (R9, R67). -/
def AttemptFails (old : Stats) (l : Line) (x : Exchange) (c : Instr) (st : Stats) (k : FailCause) : Prop :=
  let clean (r : Reception) := r.parityError = false ∧ r.framingError = false ∧ r.broken = false
  let sums (r : Reception) := (crc16 (r.bytes.take (r.bytes.length - 2))).toNat = num16 r.bytes (r.bytes.length - 2)
  c = .noReply l ∧ k = .noReply ∧ st = { old with noReplies := min 65535 (old.noReplies + 1) } ∨
  k = .bad ∧
    ((∃ r, c = .badReply l r ∧ r.parityError = true ∧
        st = { old with parityErrors := min 65535 (old.parityErrors + 1) }) ∨
      (∃ r, c = .badReply l r ∧ r.parityError = false ∧ (r.framingError = true ∨ r.broken = true) ∧
        st = { old with framingErrors := min 65535 (old.framingErrors + 1) }) ∨
      (∃ r, c = .badReply l r ∧ clean r ∧ ¬ sums r ∧ st = { old with crcErrors := min 65535 (old.crcErrors + 1) }) ∨
      (∃ r, c = .badReply l r ∧ clean r ∧ sums r ∧
        (num8 r.bytes 0 ≠ x.address ∨ num8 r.bytes 1 ≠ x.purpose.replyCode ∨
          replyPayloadBytes (num8 r.bytes 1) ≠ some (num16 r.bytes 3) ∨ num8 r.bytes 2 ≠ x.purpose.frameTag ∨
          ∀ y, replyOf ((r.bytes.take (r.bytes.length - 2)).drop 5) (num8 r.bytes 1) = some y →
            contentOk x.purpose y = false) ∧
        st = old) ∨
      (∃ i, c = .identReceived l i ∧ (x.purpose.replyCode ≠ 0x81 ∨ i.capacity = 0) ∧ st = old) ∨
      (∃ f, c = .fillReceived l f ∧ (∀ tag, x.purpose ≠ .load tag f.mode) ∧ st = old) ∨
      (∃ f, c = .takenReceived l f ∧ x.purpose.takenKind ≠ some f.answered ∧ st = old) ∨
      (∃ u, c = .stateReceived l u ∧ ((∀ tag, x.purpose ≠ .poll tag) ∨ u.busy = true ∧ u.activity = .idle) ∧
        st = old))

/-- A job told to park has parked at its safe point (R54, R56): it is QUEUED with its next block kept, out of the open sets
and the READY orders, and at the head of its class queue, before the tags that stood there. -/
structure ParkedAt (s t : State) (tag : Nat) (j : Job) (e : Entry) (next : Nat) : Prop where
  job  : ∃ k, t.job tag = some k ∧
    k = { j with next := next, state := .queued, wait := none, pollDue := none, retriesUsed := 0, busyElapsed := 0
                 busyLimit := 0, parking := false, deferred := k.deferred }
  left : ∀ m, tag ∉ (t.line m).openSet ∧ tag ∉ (t.line m).ready
  head : ∃ rest, (t.line e.line).queue j.prio = tag :: (s.line e.line).queue j.prio ++ rest

/-- Some open jobs of a line have parked in one step (R54, R55): each is QUEUED with its next block and its ever-opened flag
kept; they alone have left the open set, whose order stands, and the READY order; and they stand at the heads of their class
queues in the order in which they had been opened, before the tags that stood there. -/
structure Parked (s t : State) (l : Line) (these : Nat → Job → Prop) : Prop where
  jobs  : ∀ tag j, tag ∈ (s.line l).openSet → s.job tag = some j → these tag j → ∃ k, t.job tag = some k ∧
    k = { j with state := .queued, wait := none, pollDue := none, retriesUsed := 0, busyElapsed := 0, busyLimit := 0
                 parking := false, deferred := k.deferred }
  left  : ∀ tag j m, tag ∈ (s.line l).openSet → s.job tag = some j → these tag j →
    tag ∉ (t.line m).openSet ∧ tag ∉ (t.line m).ready ∧ ∀ x, (t.line m).exchange = some x → x.purpose.tag ≠ some tag
  kept  : (t.line l).openSet.Sublist (s.line l).openSet ∧
    ∀ tag j, tag ∈ (s.line l).openSet → s.job tag = some j → ¬ these tag j → tag ∈ (t.line l).openSet
  heads : ∀ n, n < 4 → ∃ parked rest, (t.line l).queue n = parked ++ (s.line l).queue n ++ rest ∧
    parked.Sublist (s.line l).openSet ∧
    ∀ tag, tag ∈ parked ↔ tag ∈ (s.line l).openSet ∧ ∃ j, s.job tag = some j ∧ min j.prio 3 = n ∧ these tag j

/-- At a cutoff the job parks at once (R56): it is READY, in RELEASED or VERIFYING with no poll in flight, or in SENDING with a
burst of which no BLOCK frame has been begun (one that waits for the gap by log entry 18). -/
def ParksAtCutoff (s : State) (l : Line) (tag : Nat) (j : Job) : Prop :=
  j.state = .ready ∨
  (j.state = .released ∨ j.state = .verifying) ∧ (∀ x, (s.line l).exchange = some x → x.purpose.tag ≠ some tag) ∨
  j.state = .sending ∧ ∃ x first count, (s.line l).exchange = some x ∧ x.purpose = .burst tag first count ∧
    x.framesOut = false

/-- At a cutoff the job's parking flag is set (R56): it is STARTING, its poll is in flight, or it is SENDING with BLOCK frames
or CHECK on the line (a POLL or CHECK that waits for the gap by log entry 18). -/
def FlaggedAtCutoff (s : State) (l : Line) (tag : Nat) (j : Job) : Prop :=
  j.state = .starting ∨
  (j.state = .released ∨ j.state = .verifying) ∧ (∃ x, (s.line l).exchange = some x ∧ x.purpose = .poll tag) ∨
  j.state = .sending ∧ ∃ x, (s.line l).exchange = some x ∧
    (x.purpose = .check tag ∨ ∃ first count, x.purpose = .burst tag first count ∧ x.framesOut = true)

/-- What a cutoff does to the open jobs (R54, R56): on each line those that park at once have parked, and the others stand
open with the parking flag set. It is said of lines whose open jobs are in one of the states that R56 names. -/
def CutOff (s t : State) : Prop :=
  (∀ l tag j, tag ∈ (s.line l).openSet → s.job tag = some j → ParksAtCutoff s l tag j ∨ FlaggedAtCutoff s l tag j) →
    ∀ l, Parked s t l (fun tag j => ParksAtCutoff s l tag j) ∧
      ∀ tag j, tag ∈ (s.line l).openSet → s.job tag = some j → FlaggedAtCutoff s l tag j → ∃ k, t.job tag = some k ∧
        k = { j with parking := true, busyElapsed := k.busyElapsed } ∧
        ∀ x, (s.line l).exchange = some x → x.purpose.tag = some tag → (t.line l).exchange = some x

/-- The window is CLOSED by a countdown: no job is admitted (R98, R101). -/
def WindowShut (s : State) : Prop := s.time.window = .closed ∧ s.time.countdown.isSome = true

/-- An exchange has begun on a line, for a purpose and at an address, by the line's settings as they stood (R66, R68,
R85). -/
def Began (s t : State) (l : Line) (p : Purpose) (address limit : Nat) : Prop :=
  ∃ y, (t.line l).exchange = some y ∧ y.purpose = p ∧ y.address = address ∧ y.limit = limit ∧ y.retries = 0 ∧
    y.rate = (s.line l).settings.rate ∧ y.timeout = (s.line l).settings.timeout ∧ (y.phase = .gap ∨ y.phase = .sending 0)

/-- `n` is `a / b` rounded up. -/
def IsCeil (a b n : Nat) : Prop := a ≤ n * b ∧ n * b < a + b

/-- The estimate of a job is `T` milliseconds (R93 to R95): its bursts to go, each of the cost of one burst cycle, the erase
allowance when its LOAD would be FRESH (R47), and the verify allowance, up to 2^32 − 1. -/
def Estimated (s : State) (j : Job) (e : Entry) (img : Image) (T : Nat) : Prop :=
  let p := s.profile e.profile
  let x := (s.line e.line).settings
  ∃ wire n ms, IsCeil ((2937 * p.burst + 429) * 2 ^ (min x.rate 3 + 1) * 10000) 18432 wire ∧
    IsCeil (img.length - j.next) p.burst n ∧
    IsCeil (n * (wire + 2 * x.timeout + 100 * e.estimate)) 1000 ms ∧
    T = min 4294967295 (ms + 1000 * (if loadMode j e img = .fresh then p.erase else 0) + 1000 * p.verify)

/-- The Time Budget admits a job in YARD and QUIET (R101). -/
def Admitted (s : State) (j : Job) (e : Entry) (img : Image) : Prop :=
  s.time.countdown = none ∨ s.time.window = .opened ∧
    ∃ c T, s.time.countdown = some c ∧ Estimated s j e img T ∧ T + 1000 * s.guardTime ≤ 1000 * c

/-- The Time Budget does not admit a job in YARD and QUIET (R101). -/
def NotAdmitted (s : State) (j : Job) (e : Entry) (img : Image) : Prop :=
  ∃ c, s.time.countdown = some c ∧
    (s.time.window = .closed ∨ ∃ T, Estimated s j e img T ∧ 1000 * c < T + 1000 * s.guardTime)

/-- The unit in a slot waits for a job, for its target's image (R44). -/
def Waits (s : State) (i : Nat) (e : Entry) (g : Target) : Prop :=
  s.entry i = some e ∧ e.state = .pending ∧ (∀ tag j, tag < Config.tags → s.job tag = some j → j.slot ≠ i) ∧
    e.presence ≠ .absent ∧ (s.line e.line).state ≠ .disabled ∧ e.target = some g ∧
    ∃ r, s.image g.imageId = some r ∧ r.state = .stored

/-- No tag is free, or no unit waits for a job (R44). -/
def NoneWaits (s : State) : Prop :=
  (∀ tag, tag < Config.tags → (s.job tag).isSome = true) ∨ ∀ i e g, i < Config.slots → ¬ Waits s i e g

/-- A unit may be sent SWAP, for its target (R106): it is STAGED and not ABSENT, and its inactive bank holds the target's
version, valid. -/
def MaySwap (s : State) (l : Line) (k : Nat) (e : Entry) (g : Target) : Prop :=
  s.entry k = some e ∧ e.line = l ∧ e.state = .staged ∧ e.presence ≠ .absent ∧ e.target = some g ∧
    e.inactiveRecord = { version := some g.version, valid := true }

/-- The failure of the exchange counts against the line: a failure by Table 4.3 (R77). -/
def CountsAgainst (s : State) (l : Line) (x : Exchange) : Prop :=
  (∃ tag, x.purpose.tag = some tag ∧ (s.job tag).isSome = true) ∨
  (∃ slot, x.purpose = .swap slot ∨ x.purpose = .revert slot ∨ x.purpose = .rosterProbe slot) ∨
  (x.purpose = .fullProbe ∧ (s.slotAt l x.address).isSome = true)

/-- The flash after a good program: its bytes stand at its address, every other byte as before. -/
def FlashTook (s t : State) (addr : Nat) (bytes : List Byte) : Prop :=
  ∀ a, flashRead t.flash a =
    if addr ≤ a ∧ a < addr + bytes.length then bytes.getD (a - addr) 0xFF else flashRead s.flash a

/-- The flash after a good erase: its bytes read erased, every other byte as before. -/
def FlashErased (s t : State) (addr count : Nat) : Prop :=
  ∀ a, flashRead t.flash a = if addr ≤ a ∧ a < addr + count then 0xFF else flashRead s.flash a

/-- The flash is as before but for the bytes an operation was writing. -/
def FlashSpared (s t : State) (op : FlashOp) : Prop :=
  ∀ a, op.covers a = false → flashRead t.flash a = flashRead s.flash a

/-- A flash operation has been asked for: it waits in its class, or has begun (section 8.3). -/
def ProgramAsked (t : State) (p : Program) : Prop := p ∈ t.eng.programs ∨ t.eng.op = some (.program p)

/-- A class-4 operation has been asked for. -/
def Class4Asked (t : State) (op : FlashOp) : Prop := t.eng.class4 = some op ∨ t.eng.op = some op

/-- The numbers of working memory fit the settings record and pass its checks (R22, R25, R29, R85, R173). -/
structure RecordLegal (s : State) : Prop where
  lines    : ∀ l, (s.line l).settings.rate < 256 ∧ (s.line l).settings.timeout < 65536 ∧
    (s.line l).settings.retry < 256 ∧ (s.line l).settings.openLimit < 256 ∧ (s.line l).settings.swapLimit < 256 ∧
    (s.line l).settings.interval < 256
  guard    : s.guardTime < 65536
  count    : s.profiles.length = 16
  profiles : ∀ p, p ∈ s.profiles → p.cls < 256 ∧ p.burst < 256 ∧ p.seed < 65536 ∧ p.erase < 256 ∧ p.verify < 256 ∧
    p.boot < 256
  rules    : s.rules.length ≤ 16 ∧ ∀ r, r ∈ s.rules → r.cls < 256 ∧ r.hwMin ≤ r.hwMax ∧ r.hwMax < 256 ∧ r.imageId ≠ 0 ∧
    r.imageId < 65536 ∧ r.prio ≤ 3
  pins     : ∀ table, table = s.yardPins ∨ table = s.servicePins → table.length ≤ 32 ∧
    (table.map PinRecord.serial).Nodup ∧ ∀ r, r ∈ table → r.serial < 4294967296 ∧ r.pin.imageId ≠ 0 ∧
      r.pin.imageId < 65536 ∧ r.pin.prio ≤ 3
  held     : s.heldSerials.length ≤ 32 ∧ s.heldSerials.Nodup ∧ ∀ n, n ∈ s.heldSerials → n < 4294967296

/-! ### The start-up scan -/

/-- The identity fields of a tag page, when they are well formed (R139, Table 12.8). -/
def IdentityOf (page : List Byte) (t : TagInfo) : Prop :=
  (crc16 (page.take 12)).toNat = num16 page 12 ∧ t.id = num16 page 0 ∧ t.version = numVersion page 2 ∧
    t.length = num16 page 6 ∧ t.position = num16 page 8 ∧ t.total = num16 page 10 ∧
    1 ≤ t.id ∧ 1 ≤ t.length ∧ t.length ≤ 4080 ∧ IsCeil t.length 15 t.total ∧ t.position < t.total

/-- The marks of a tag page (R139, Table 12.8): a close mark is valid when its field is not erased and its CRC-16 matches, a
drop mark present when its field is not erased. -/
def MarksOf (page : List Byte) (t : TagInfo) : Prop :=
  let field := (page.drop 64).take 9
  let valid := (∃ b ∈ field, b ≠ 0xFF#8) ∧ (crc16 (field.take 7)).toNat = num16 field 7
  (valid → t.close = some (BitVec.ofNat 32 (num32 field 0), num8 field 4, num8 field 5, num8 field 6)) ∧
    (¬ valid → t.close = none) ∧ (t.drop = true ↔ ∃ b ∈ (page.drop 128).take 2, b ≠ 0xFF#8)

/-- The class of a tag page (R139). -/
def TagClassed (page : List Byte) : TagClass → Prop
  | .erased => ∀ b ∈ page, b = 0xFF#8
  | .wellFormed t => (∃ b ∈ page, b ≠ 0xFF#8) ∧ IdentityOf page t ∧ MarksOf page t
  | .broken => (∃ b ∈ page, b ≠ 0xFF#8) ∧ ∀ t, ¬ IdentityOf page t

/-- The tag of an extent is one of a group (R139). -/
def InGroup (xs : List (Nat × TagClass)) (id n : Nat) (t : TagInfo) : Prop := (n, .wellFormed t) ∈ xs ∧ t.id = id

/-- A group of well-formed tags is accepted (R139, R140). -/
structure Accepted (xs : List (Nat × TagClass)) (id : Nat) : Prop where
  agree  : ∀ n t m u, InGroup xs id n t → InGroup xs id m u →
             t.version = u.version ∧ t.length = u.length ∧ t.total = u.total
  below  : ∀ n t, InGroup xs id n t → t.position < t.total
  once   : ∀ n t j, InGroup xs id n t → j < t.total → ∃ (k m : Nat) (u : TagInfo),
             xs[k]? = some (m, .wellFormed u) ∧ u.id = id ∧ u.position = j ∧
               ∀ (k' m' : Nat) (u' : TagInfo), xs[k']? = some (m', .wellFormed u') → u'.id = id → u'.position = j → k' = k
  closed : ∃ n t, InGroup xs id n t ∧ t.position = 0 ∧ t.close.isSome = true ∧ t.drop = false

/-- A group is rebuilt (R140): it is accepted, and fewer than 24 accepted groups have lower ids. -/
def Kept (xs : List (Nat × TagClass)) (id : Nat) : Prop :=
  Accepted xs id ∧ ∀ l : List Nat, l.Nodup → (∀ i ∈ l, i < id ∧ Accepted xs i) → l.length < 24

/-- The store as the scan of these tags rebuilds it (R140). -/
structure Rebuilt (xs : List (Nat × TagClass)) (b : Store) : Prop where
  order   : (b.images.map Image.id).Pairwise (· < ·)
  ids     : ∀ id, (∃ r ∈ b.images, r.id = id) ↔ Kept xs id
  records : ∀ r ∈ b.images, r.state = .stored ∧ r.intake = none ∧ r.markPending = false ∧ r.markFailed = false ∧
              r.jobCount = 0 ∧ r.dropped = false ∧ r.droppers = [] ∧ r.received = r.length ∧
              r.blocks = List.replicate r.length .received ∧ r.tags = List.replicate r.extents.length .written
  tags    : ∀ r ∈ b.images, ∀ n t, InGroup xs r.id n t → r.version = t.version ∧ r.length = t.length ∧
              r.extents.length = t.total ∧ r.extents[t.position]? = some n ∧
              (t.position = 0 → t.close = some (r.crc, r.cls, r.hwMin, r.hwMax))
  free    : b.free.Sublist (xs.map Prod.fst) ∧ ∀ n, n ∈ b.free ↔ (n, .erased) ∈ xs
  dirty   : b.dirty.Sublist (xs.map Prod.fst) ∧
              (∀ n, n ∈ b.dirty ↔ (∃ c, (n, c) ∈ xs) ∧ n ∉ b.free ∧ ∀ r ∈ b.images, n ∉ r.extents) ∧
              ∀ n c, (n, c) ∈ xs → (∀ d, (n, d) ∈ xs → d = c) →
                (n ∈ b.dirty ↔ c = .broken ∨ ∃ t, c = .wellFormed t ∧ ¬ Kept xs t.id)
  bad     : b.bad = []

/-- Some group of the tags lacks a valid close mark at position 0 (R140). -/
def LacksClose (xs : List (Nat × TagClass)) : Prop :=
  ∃ n t, (n, .wellFormed t) ∈ xs ∧ ∀ m u, InGroup xs t.id m u → u.position = 0 → u.close = none

end Sys2Proof.Machine
end

