-- ==== Sys2Proof/Certificates/Slice0/Obligations.lean ====
section
/-!
DEFINITION. The statements about the ND3204 that are to be proved. Each docstring names the rules of spec/ it rests on.
-/

open Sys2Proof Sys2Proof.Machine

/-! ### The step, the full reset and the invariants -/

/-- A step takes the command at the front of the queue and carries it out on the state with the queue's rest; on an empty
queue the part idles (the model's choice, log entry 2). -/
def Obligations.StepTakesTheFrontCommand : Prop :=
  (∀ c rest s, s.pending = c :: rest → step s = exec c { s with pending := rest }) ∧
    ∀ s : State, s.pending = [] → step s = .next s

/-- The state right after a full reset holds the values the chapters give (R89, R96 to R98, R105, R152, R165, R168, R177,
Tables 2.1 and 4.6). That the device reset has been issued and its hold stands is the model's choice (log entry 21). -/
def Obligations.ResetHoldsFullResetValues : Prop :=
  let s := State.reset
  s.veh = { mode := .inService, hold := none, cause := none, asserted := false, run := 0 } ∧
  s.time.countdown = none ∧ s.time.upcoming = none ∧ s.time.window = .opened ∧ s.time.depotTime = 0 ∧
  s.time.depotSet = false ∧ s.guardTime = 300 ∧
  (∀ i, s.entry i = none) ∧ s.heldSerials = [] ∧ (∀ t, s.job t = none) ∧ s.rules = [] ∧ s.yardPins = [] ∧
  s.servicePins = [] ∧ s.profiles.length = 16 ∧
  (∀ i, i < 16 → s.profiles[i]? = some
    { used := i == 0, cls := 0, burst := 1, seed := 500, erase := 20, verify := 10, boot := 60 }) ∧
  (∀ l, (s.line l).state = .active ∧ (s.line l).run = 0 ∧ (s.line l).charges = [] ∧ (s.line l).exchange = none ∧
    (s.line l).openSet = [] ∧ (s.line l).queued = [] ∧ (s.line l).ready = [] ∧ (s.line l).buffer = none ∧
    (s.line l).sweep = none ∧ (s.line l).fullDue = true ∧ (s.line l).sweepTimer = none ∧
    (s.line l).recoveryTimer = none ∧
    (s.line l).stats =
      { framesSent := 0, goodReplies := 0, noReplies := 0, parityErrors := 0, framingErrors := 0, crcErrors := 0,
        retries := 0, blocksDelivered := 0 } ∧
    (s.line l).settings =
      { rate := 1, timeout := 1000, retry := 3, openLimit := 4, swapLimit := 2, interval := 1, enable := true }) ∧
  s.eng.op = none ∧ s.eng.suspended = none ∧ s.eng.suspCount = 0 ∧ s.eng.hold = true ∧ s.starting = true ∧
  (∀ p, (s.port p).reply = none ∧ (s.port p).slot = none ∧ (s.port p).attention = false ∧
    (s.port p).mask = List.replicate 20 true ∧
    (s.port p).flags = List.replicate 20 { isSet := false, count := 0, qual := none })

/-- The state right after a full reset meets every invariant that the steps keep. -/
def Obligations.ResetMeetsTheInvariants : Prop :=
  VehicleLegal State.reset.veh ∧ DirectoryLegal State.reset ∧ ShapeLegal State.reset ∧
    StartUpLegal State.reset ∧ ExchangeLegal State.reset ∧ SwapLegal State.reset ∧ FlashStill State.reset ∧
    flashWf State.reset.flash = true ∧ NoneWaits State.reset ∧ StoreLegal State.reset ∧ PoolLegal State.reset

/-- FULL_RESET takes every block to its full-reset value; the queue of commands and the flash's contents stay, but for
bytes that an operation in progress or a suspended erase was writing (R151, R177; log entry 22). A save that it cuts off
leaves no valid record (R175; the contents of extent 0 by log entry 33). -/
def Obligations.FullResetKeepsTheFlash : Prop :=
  ∀ s : State, ∃ t, exec .fullReset s = .next t ∧
    t = { State.reset with pending := s.pending, flash := t.flash, flashUse := t.flashUse } ∧
    (flashWf s.flash = true → ∀ a, ((∃ p, s.settings.op = .saving p) → 4096 ≤ a) →
      (∀ op, s.eng.op = some op ∨ s.eng.suspended = some op → op.covers a = false) →
        flashRead t.flash a = flashRead s.flash a) ∧
    (flashWf s.flash = true → (∃ p, s.settings.op = .saving p) → readRecord (flashReadRange t.flash 0 1024) = none)

/-- Every step keeps the vehicle interface legal: a mode hold in YARD and QUIET alone and of at most 30,000 ms, a cause in
HALTED alone, a run of at most 2, and the warning level ASSERTED only in HALTED (R152 to R157). -/
def Obligations.StepsKeepTheVehicleLegal : Prop :=
  ∀ s t : State, VehicleLegal s.veh → step s = .next t → VehicleLegal t.veh

/-- Every step keeps the model's list of the flash's bytes in its canonical form: the representation is the model's own
(log entry 3). -/
def Obligations.StepsKeepTheFlashCanonical : Prop :=
  ∀ s t : State, flashWf s.flash = true → step s = .next t → flashWf t.flash = true

/-- Every step keeps the directory legal: one record for each image id, at most 24 records (R126, R127, R140). -/
def Obligations.StepsKeepTheDirectoryLegal : Prop :=
  ∀ s t : State, DirectoryLegal s → step s = .next t → DirectoryLegal t

/-- Every step keeps the sizes of the roster, the job pool, the profiles and the flag sets (R1, R39, Table 2.1, R168). -/
def Obligations.StepsKeepTheSizes : Prop :=
  ∀ s t : State, ShapeLegal s → step s = .next t → ShapeLegal t

/-- Every step keeps exchanges where they may be: none in HALTED, before the start-up full sweeps or on a DISABLED line, and
recovery probes alone on a FAULTED line; the lines do not run during the start-up load, and a start-up full sweep that has
not ended is an ACTIVE line's (R81, R84, R86, R157, R177). Every step keeps a SWAP whose frame is not wholly sent to QUIET
(R76, R107), and the flash still in HALTED: no operation in progress and no suspended erase (R150, R157). -/
def Obligations.StepsKeepExchangesLegal : Prop :=
  (∀ s t : State, StartUpLegal s → ExchangeLegal s → step s = .next t → StartUpLegal t ∧ ExchangeLegal t) ∧
    (∀ s t : State, SwapLegal s → step s = .next t → SwapLegal t) ∧
    ∀ s t : State, FlashStill s → step s = .next t → FlashStill t

/-- Every step keeps the image store legal: from the end of the scan on, every extent of 1 to 2047 is in exactly one of FREE,
DIRTY, BAD and one record's extent list (R124, R130, R134, R135, R137, R138, R140). The steps keep with it what this rests
on: the scan reads the tags in turn (R139), one background erase at a time is asked for, of the dirty list's head (R138),
each outstanding program and close-check read fits its image's record (R129, R133 to R137), and received counts are the
blocks' (R126, R129, R132). -/
def Obligations.StepsKeepTheStoreLegal : Prop :=
  ∀ s t : State, StartUpLegal s → DirectoryLegal s → StoreLegal s → step s = .next t → StoreLegal t

/-- Every step keeps the job pool and the lines' collections legal: a tag of a class queue, a READY order or an open set
names a job of a unit of that line (R42, R43), at most the open limit of jobs are open on a line (R43), a unit has one job at
most (R40), and an image's job count is the number of jobs that name it (R41). The steps keep with it where each job's tag
stands by its state (R42, R43, R50), the job's entry, PENDING or LOADING (R40, R46), its image (R39, R41), and the purpose of
an exchange for it (R46, R49 to R51). -/
def Obligations.StepsKeepTheJobPoolLegal : Prop :=
  ∀ s t : State, ShapeLegal s → StartUpLegal s → ExchangeLegal s → DirectoryLegal s → StoreLegal s → PoolLegal s →
    step s = .next t → PoolLegal t

/-! ### Taking an order -/

/-- What stands before an order's own checks, in order: an order on a port on which a RESET stands makes the full reset and
is not carried out (R166); one that Table 10.1 does not permit on the port is DENIED (R163); during the start-up phase one on
the Yard or Service port, but READ STATUS, is answered STARTING, and in HALTED the six orders of R164 are answered HALTED;
a second long order on a port is BUSY (R165). None of these changes anything else. -/
def Obligations.GatesAnswerBeforeTheOrder : Prop :=
  ∀ c o s, orderTerms c = some o →
    (s.armed o.port = true → exec c s = exec .fullReset s) ∧
    (s.armed o.port = false →
      (o.port ∉ o.permitted → ∃ t, exec c s = .next t ∧ Answered s t o.port ⟨.denied, .empty⟩) ∧
      (o.port ∈ o.permitted → o.heldByStartUp s = true →
        ∃ t, exec c s = .next t ∧ Answered s t o.port ⟨.starting, .empty⟩) ∧
      (o.port ∈ o.permitted → o.heldByStartUp s = false → s.halted = true → o.stopped = true →
        ∃ t, exec c s = .next t ∧ Answered s t o.port ⟨.halted, .empty⟩) ∧
      (o.port ∈ o.permitted → o.heldByStartUp s = false → (s.halted = true → o.stopped = false) → o.long = true →
        (s.port o.port).slot.isSome = true → ∃ t, exec c s = .next t ∧ Answered s t o.port ⟨.busy, .empty⟩))

/-- The checks that orders make themselves, each on the first that fails: the status, and nothing else changed (R19, R22,
R29, R30, R85, R87, R88, R97, R127, R128, R132, R135, R141, R153, R169, R171, R181). That a field outside its
encoding is tested before the order's other checks is the model's choice (log entry 11). SWEEP NOW has no check of its own;
those of SET RULE and REMOVE RULE are stated with their effects. -/
def Obligations.OrdersAreRefusedByTheirOwnChecks : Prop :=
  ∀ (s : State) (p : Port),
    (∀ id cls lo hi v len crc, accepts s (.openImage p id cls lo hi v len crc) = true →
      (id = 0 ∨ len = 0 ∨ 4080 < len ∨ hi < lo →
        ∃ t, exec (.openImage p id cls lo hi v len crc) s = .next t ∧ Answered s t p ⟨.range, .empty⟩) ∧
      (id ≠ 0 → len ≠ 0 → len ≤ 4080 → lo ≤ hi → (s.image id).isSome = true →
        ∃ t, exec (.openImage p id cls lo hi v len crc) s = .next t ∧ Answered s t p ⟨.exists, .empty⟩) ∧
      (id ≠ 0 → len ≠ 0 → len ≤ 4080 → lo ≤ hi → s.image id = none →
        (∃ r ∈ s.store.images, r.state = .receiving ∧ r.intake = some p) →
        ∃ t, exec (.openImage p id cls lo hi v len crc) s = .next t ∧ Answered s t p ⟨.busy, .empty⟩) ∧
      (id ≠ 0 → len ≠ 0 → len ≤ 4080 → lo ≤ hi → s.image id = none →
        (∀ r ∈ s.store.images, r.state = .receiving → r.intake ≠ some p) →
        (24 ≤ s.store.images.length ∨ s.store.free.length * 15 < len) →
        ∃ t, exec (.openImage p id cls lo hi v len crc) s = .next t ∧ Answered s t p ⟨.noRoom, .empty⟩)) ∧
    (∀ id b d, accepts s (.writeBlock p id b d) = true →
      (s.image id = none → ∃ t, exec (.writeBlock p id b d) s = .next t ∧ Answered s t p ⟨.notFound, .empty⟩) ∧
      ∀ r, s.image id = some r →
        (r.state ≠ .receiving → ∃ t, exec (.writeBlock p id b d) s = .next t ∧ Answered s t p ⟨.state, .empty⟩) ∧
        (r.state = .receiving → r.intake ≠ some p →
          ∃ t, exec (.writeBlock p id b d) s = .next t ∧ Answered s t p ⟨.denied, .empty⟩) ∧
        (r.state = .receiving → r.intake = some p → r.length ≤ b →
          ∃ t, exec (.writeBlock p id b d) s = .next t ∧ Answered s t p ⟨.range, .empty⟩) ∧
        (r.state = .receiving → r.intake = some p → b < r.length → r.blocks[b]? = some .writing →
          ∃ t, exec (.writeBlock p id b d) s = .next t ∧ Answered s t p ⟨.busy, .empty⟩) ∧
        (r.state = .receiving → r.intake = some p → b < r.length → r.blocks[b]? = some .received →
          ∃ t, exec (.writeBlock p id b d) s = .next t ∧ Answered s t p ⟨.blockWritten, .empty⟩)) ∧
    (∀ id, accepts s (.closeImage p id) = true →
      (s.image id = none → ∃ t, exec (.closeImage p id) s = .next t ∧ Answered s t p ⟨.notFound, .empty⟩) ∧
      ∀ r, s.image id = some r →
        (r.state ≠ .receiving → ∃ t, exec (.closeImage p id) s = .next t ∧ Answered s t p ⟨.state, .empty⟩) ∧
        (r.state = .receiving → r.intake ≠ some p →
          ∃ t, exec (.closeImage p id) s = .next t ∧ Answered s t p ⟨.denied, .empty⟩) ∧
        (r.state = .receiving → r.intake = some p → r.received ≠ r.length →
          ∃ t, exec (.closeImage p id) s = .next t ∧ Answered s t p ⟨.incomplete, .empty⟩)) ∧
    (∀ id, accepts s (.dropImage p id) = true → s.image id = none →
      ∃ t, exec (.dropImage p id) s = .next t ∧ Answered s t p ⟨.notFound, .empty⟩) ∧
    (∀ id first, accepts s (.readImage p id first) = true → s.image id = none →
      ∃ t, exec (.readImage p id first) s = .next t ∧ Answered s t p ⟨.notFound, .empty⟩) ∧
    (∀ i a, accepts s (.setProfile p i a) = true → 15 < i ∨ 1 < a.used →
      ∃ t, exec (.setProfile p i a) s = .next t ∧ Answered s t p ⟨.range, .empty⟩) ∧
    (∀ i id prio n, accepts s (.pinUnit p i id prio n) = true → 1 < n →
      ∃ t, exec (.pinUnit p i id prio n) s = .next t ∧ Answered s t p ⟨.range, .empty⟩) ∧
    (∀ i id prio n, accepts s (.pinUnit p i id prio n) = true → n ≤ 1 →
      (32 ≤ i → ∃ t, exec (.pinUnit p i id prio n) s = .next t ∧ Answered s t p ⟨.range, .empty⟩) ∧
      (i < 32 → s.entry i = none →
        ∃ t, exec (.pinUnit p i id prio n) s = .next t ∧ Answered s t p ⟨.notFound, .empty⟩) ∧
      (i < 32 → (s.entry i).isSome = true → 3 < prio ∨ id = 0 →
        ∃ t, exec (.pinUnit p i id prio n) s = .next t ∧ Answered s t p ⟨.range, .empty⟩)) ∧
    (∀ i, accepts s (.unpinUnit p i) = true →
      (32 ≤ i → ∃ t, exec (.unpinUnit p i) s = .next t ∧ Answered s t p ⟨.range, .empty⟩) ∧
      (i < 32 → s.entry i = none → ∃ t, exec (.unpinUnit p i) s = .next t ∧ Answered s t p ⟨.notFound, .empty⟩)) ∧
    (∀ i, accepts s (.releaseUnit p i) = true →
      (32 ≤ i → ∃ t, exec (.releaseUnit p i) s = .next t ∧ Answered s t p ⟨.range, .empty⟩) ∧
      (i < 32 → s.entry i = none → ∃ t, exec (.releaseUnit p i) s = .next t ∧ Answered s t p ⟨.notFound, .empty⟩) ∧
      (∀ e, i < 32 → s.entry i = some e → e.state ≠ .held →
        ∃ t, exec (.releaseUnit p i) s = .next t ∧ Answered s t p ⟨.state, .empty⟩)) ∧
    (∀ i, accepts s (.readUnit p i) = true →
      (32 ≤ i → ∃ t, exec (.readUnit p i) s = .next t ∧ Answered s t p ⟨.range, .empty⟩) ∧
      (i < 32 → s.entry i = none → ∃ t, exec (.readUnit p i) s = .next t ∧ Answered s t p ⟨.notFound, .empty⟩)) ∧
    (∀ i, accepts s (.readRoster p i) = true → 32 ≤ i →
      ∃ t, exec (.readRoster p i) s = .next t ∧ Answered s t p ⟨.range, .empty⟩) ∧
    (∀ m, accepts s (.setMode p m) = true →
      (3 < m → ∃ t, exec (.setMode p m) s = .next t ∧ Answered s t p ⟨.range, .empty⟩) ∧
      (m < 3 → s.halted = true → s.veh.asserted = true →
        ∃ t, exec (.setMode p m) s = .next t ∧ Answered s t p ⟨.halted, .empty⟩)) ∧
    (∀ g v, accepts s (.setDeparture p g v) = true → 1 < g ∨ g = 0 ∧ v ≠ 0 →
      ∃ t, exec (.setDeparture p g v) s = .next t ∧ Answered s t p ⟨.range, .empty⟩) ∧
    (∀ n a g, accepts s (.setLine p n a g) = true → 1 < n ∨ 1 < a.enable →
      ∃ t, exec (.setLine p n a g) s = .next t ∧ Answered s t p ⟨.range, .empty⟩) ∧
    (∀ n c, accepts s (.readLine p n c) = true → 1 < n ∨ 1 < c →
      ∃ t, exec (.readLine p n c) s = .next t ∧ Answered s t p ⟨.range, .empty⟩) ∧
    (∀ n, accepts s (.resetLine p n) = true → 1 < n →
      ∃ t, exec (.resetLine p n) s = .next t ∧ Answered s t p ⟨.range, .empty⟩) ∧
    (∀ es, accepts s (.setEventMask p es) = true → (∃ n ∈ es, 1 < n) →
      ∃ t, exec (.setEventMask p es) s = .next t ∧ Answered s t p ⟨.range, .empty⟩)

/-! ### The read orders -/

/-- LIST IMAGES answers the three extent counts and every record of the directory in ascending image id; READ IMAGE, READ UNIT
and READ ROSTER answer what they name, a unit with its job's tag, the lowest where it could have more. None changes anything
else (R141, R171). -/
def Obligations.ReadOrdersAnswerWhatTheyName : Prop :=
  (∀ s p, accepts s (.listImages p) = true → ∃ (t : State) (xs : List Image), exec (.listImages p) s = .next t ∧
      xs.Perm s.store.images ∧ xs.Pairwise (fun a b => a.id ≤ b.id) ∧
      Answered s t p ⟨.done, .images s.store.free.length s.store.dirty.length s.store.bad.length (xs.map fun r =>
        { id := r.id, state := r.state, version := r.version, length := r.length, received := r.received,
          jobCount := r.jobCount })⟩) ∧
  (∀ (s : State) (p : Port),
      (∀ id first r, accepts s (.readImage p id first) = true → s.image id = some r →
        ∃ (t : State) (q : ImageReport), exec (.readImage p id first) s = .next t ∧ Answered s t p ⟨.done, .image q⟩ ∧
          q.id = r.id ∧ q.state = r.state ∧ q.intake = r.intake ∧ q.cls = r.cls ∧ q.hwMin = r.hwMin ∧ q.hwMax = r.hwMax ∧
          q.version = r.version ∧ q.length = r.length ∧ q.crc = r.crc ∧ q.received = r.received ∧
          q.markPending = r.markPending ∧ q.markFailed = r.markFailed ∧ q.jobCount = r.jobCount ∧
          q.extents = (r.extents.drop first).take 32 ∧ q.missing.length ≤ 64 ∧ q.missing.Pairwise (· < ·) ∧
          (∀ b ∈ q.missing, b < r.length ∧ r.blocks[b]? = some .missing) ∧
          (∀ b, b < r.length → r.blocks[b]? = some .missing → b ∈ q.missing ∨
            (q.missing.length = 64 ∧ ∀ c ∈ q.missing, c < b))) ∧
      (∀ i e, accepts s (.readUnit p i) = true → i < 32 → s.entry i = some e →
        ∃ (t : State) (u : UnitDetail), exec (.readUnit p i) s = .next t ∧ Answered s t p ⟨.done, .unitData u⟩ ∧ u.entry = e ∧
          (∀ tag j, u.job = some (tag, j) → s.job tag = some j ∧ j.slot = i ∧
            ∀ n k, n < tag → s.job n = some k → k.slot ≠ i) ∧
          (u.job = none → ∀ tag j, tag < 24 → s.job tag = some j → j.slot ≠ i) ∧
          (u.paused = true ↔ s.veh.mode = .halted ∨ (s.line e.line).state ≠ .active)) ∧
      (∀ first, accepts s (.readRoster p first) = true → first < 32 →
        ∃ (t : State) (xs : List (Option RosterSummary)), exec (.readRoster p first) s = .next t ∧
          Answered s t p ⟨.done, .roster xs⟩ ∧ xs.length = min 16 (32 - first) ∧
          ∀ i, i < xs.length →
            (s.entry (first + i) = none → xs[i]? = some none) ∧
            ∀ e, s.entry (first + i) = some e → ∃ q, xs[i]? = some (some q) ∧
              q.line = e.line ∧ q.address = e.address ∧ q.serial = e.serial ∧ q.presence = e.presence ∧
              q.state = e.state ∧ q.failCount = e.failCount ∧ q.running = e.runningRecord.version ∧
              (∀ tag, q.tag = some tag → (∃ j, s.job tag = some j ∧ j.slot = first + i) ∧
                ∀ n k, n < tag → s.job n = some k → k.slot ≠ first + i) ∧
              (q.tag = none → ∀ tag j, tag < 24 → s.job tag = some j → j.slot ≠ first + i)))

/-- READ PLAN returns the rules in list order and all 16 profiles in index order, and changes nothing; it is answered
STARTING during the start-up phase, and is carried out in every vehicle mode (R27). -/
def Obligations.ReadPlanReturnsThePlan : Prop :=
  ∀ (s : State) (p : Port), s.armed p = false → p ≠ .V →
    (s.starting = false → ∃ t, exec (.readPlan p) s = .next t ∧ Answered s t p ⟨.done, .plan s.rules s.profiles⟩) ∧
    (s.starting = true → ∃ t, exec (.readPlan p) s = .next t ∧ Answered s t p ⟨.starting, .empty⟩)

/-- READ STATUS answers, on every port, in every phase and mode, the state of the part as it stands (R170, R152, R104). -/
def Obligations.ReadStatusAnswersTheState : Prop :=
  ∀ (s : State) (p : Port), s.armed p = false → ∃ (t : State) (r : StatusReport),
    exec (.readStatus p) s = .next t ∧ Answered s t p ⟨.done, .statusData r⟩ ∧
    r.mode = s.veh.mode ∧ r.cause = s.veh.cause ∧ r.asserted = s.veh.asserted ∧
    r.hold = s.veh.hold.map (fun h => (h + 9999) / 10000) ∧
    r.countdown = s.time.countdown ∧ r.window = s.time.window ∧ r.guardTime = s.guardTime ∧
    r.depotTime = s.time.depotTime ∧ r.depotSet = s.time.depotSet ∧
    (r.starting = true ↔ s.startup.stage ≠ .running) ∧
    r.lineA.state = s.lineA.state ∧ r.lineB.state = s.lineB.state ∧ r.lineA.openJobs = s.lineA.openSet.length ∧
    r.lineB.openJobs = s.lineB.openSet.length ∧
    r.free = s.store.free.length ∧ r.dirty = s.store.dirty.length ∧ r.bad = s.store.bad.length ∧
    r.records = s.store.images.length ∧ r.heldCount = s.heldSerials.length ∧ r.suspCount = s.eng.suspCount ∧
    r.slot = (s.port p).slot ∧ r.mask = (s.port p).mask ∧
    r.waiting = [s.eng.readA.isSome || s.eng.readB.isSome, !s.eng.programs.isEmpty, !s.eng.checks.isEmpty,
      s.eng.class4.isSome, s.eng.class5.isSome] ∧
    r.occupied = (s.roster.filter Option.isSome).length ∧ r.jobs = (s.jobs.filter Option.isSome).length ∧
    (∀ l n, (l = .A ∧ n = r.lineA.swapping ∨ l = .B ∧ n = r.lineB.swapping) →
      n = (s.roster.filter fun o => o.any fun e =>
        e.line == l && (e.state == .switching || e.state == .fallback)).length) ∧
    (r.engine = .idle ↔ s.eng.op = none ∧ s.eng.suspended = none) ∧
    (r.engine = .eraseSuspended ↔ s.eng.op = none ∧ s.eng.suspended.isSome = true) ∧
    (r.engine = .erasing ↔ ∃ op, s.eng.op = some op ∧ (op = .settingsErase ∨ ∃ x, op = .erase x)) ∧
    (r.engine = .programming ↔ ∃ op, s.eng.op = some op ∧ ((∃ q, op = .program q) ∨ ∃ n, op = .settingsPage n)) ∧
    (r.engine = .reading ↔ ∃ op, s.eng.op = some op ∧ ((∃ l q k, op = .lineRead l q k) ∨ (∃ q k, op = .checkRead q k) ∨
      op = .settingsRead ∨ ∃ x, op = .tagRead x))

/-- READ LINE returns the line's settings, the guard, its state, failure run, pending charges, sweep, open jobs, swaps and
counters as they stand, and with the clear option clears the counters after; a line other than A or B is refused with
RANGE; it is answered STARTING during the start-up phase and carried out in every vehicle mode (R87). -/
def Obligations.ReadLineReportsTheLine : Prop :=
  ∀ (s : State) (p : Port), s.armed p = false → p ≠ .V →
    (s.starting = true → ∀ n c, ∃ t, exec (.readLine p n c) s = .next t ∧ Answered s t p ⟨.starting, .empty⟩) ∧
    (s.starting = false →
      (∀ n c, 1 < n → ∃ t, exec (.readLine p n c) s = .next t ∧ Answered s t p ⟨.range, .empty⟩) ∧
      ∀ l n c, (n = 0 ∧ l = .A ∨ n = 1 ∧ l = .B) → c ≤ 1 → ∃ (t u : State) (r : LineReport),
        exec (.readLine p n c) s = .next t ∧ Answered s u p ⟨.done, .line r⟩ ∧
        t = (if c = 0 then u else u.modLine l fun e => { e with stats :=
          { framesSent := 0, goodReplies := 0, noReplies := 0, parityErrors := 0, framingErrors := 0, crcErrors := 0,
            retries := 0, blocksDelivered := 0 } }) ∧
        r.settings = (s.line l).settings ∧ r.guardTime = s.guardTime ∧ r.state = (s.line l).state ∧
        r.run = (s.line l).run ∧ r.charges = (s.line l).charges.length ∧
        r.sweep = (s.line l).sweep.map (fun w => (w.kind, w.cursor)) ∧
        r.openJobs = (s.line l).openSet.length ∧
        r.swapping = s.roster.countP (fun o => o.any fun e =>
          e.line == l && (e.state == .switching || e.state == .fallback)) ∧
        r.stats = (s.line l).stats)

/-- Posting an event sets its flag on every port, raises its count by 1 up to 255 and replaces its qualifier; nothing else
changes (R168). READ EVENTS answers the port's flags and clears those it returned SET, so that the attention line rises; SET
EVENT MASK replaces the port's mask; neither touches another port (R169). That a flag cleared loses its qualifier is the model's
choice (log entry 41). -/
def Obligations.EventFlagsAreSetAndCleared : Prop :=
  (∀ (s : State) (p : Port),
      (accepts s (.readEvents p) = true → ∃ t, exec (.readEvents p) s = .next t ∧ OnlyPort s t p ∧
        (t.port p).reply = some ⟨.done, .events (s.port p).flags⟩ ∧ (t.port p).attention = false ∧
        (t.port p).mask = (s.port p).mask ∧ (t.port p).slot = (s.port p).slot ∧
        (t.port p).flags.length = (s.port p).flags.length ∧
        ∀ (i : Nat) (f : EventFlag), (s.port p).flags[i]? = some f →
          (t.port p).flags[i]? = some (if f.isSet then { isSet := false, count := 0, qual := none } else f)) ∧
      (∀ es, accepts s (.setEventMask p es) = true → (∀ n ∈ es, n ≤ 1) →
        ∃ (t : State), exec (.setEventMask p es) s = .next t ∧ OnlyPort s t p ∧
          (t.port p).mask = es.map (· != 0) ∧ (t.port p).reply = some ⟨.done, .mask (t.port p).mask⟩ ∧
          (t.port p).flags = (s.port p).flags ∧ (t.port p).slot = (s.port p).slot ∧
          ((t.port p).attention = true ↔ ∃ (i : Nat) (f : EventFlag) (n : Nat), (s.port p).flags[i]? = some f ∧
            f.isSet = true ∧ es[i]? = some n ∧ n ≠ 0))) ∧
  (∀ (s : State) (e : Event), Posted s (s.post e) e ∧ (∀ i, i ≠ e.index → NotPosted s (s.post e) i) ∧
      s.post e = { s with portY := { s.portY with flags := (s.post e).portY.flags },
                          portV := { s.portV with flags := (s.post e).portV.flags },
                          portS := { s.portS with flags := (s.post e).portS.flags } })

/-! ### Orders that set the part's own values -/

/-- SET TIME sets the depot time and its set flag (R167); SET DEPARTURE makes the value given the pending value and leaves
the countdown until the next tick (R97), NONE being presence 0 with its value bytes 0 (R181). Nothing else changes but the
reply. -/
def Obligations.TimeOrdersSetTheirValues : Prop :=
  ∀ (s : State) (p : Port),
    (∀ v, accepts s (.setTime p v) = true → exec (.setTime p v) s =
      .next (({ s with time := { s.time with depotTime := v, depotSet := true } }).replied p .done (.time v))) ∧
    (∀ g v, accepts s (.setDeparture p g v) = true → g ≤ 1 → (g = 0 → v = 0) → exec (.setDeparture p g v) s =
      .next (({ s with time := { s.time with upcoming := some (if g = 0 then none else some v) } }).replied p .done
        (.countdown (if g = 0 then none else some v))))

/-- SET MODE naming IN_SERVICE, YARD or QUIET sets the mode with a hold of 30,000 ms in YARD and QUIET (R153). A change to
IN_SERVICE parks the open jobs, their exchanges abandoned: each is QUEUED with its next block kept, at the head of its class
queue in the order in which the jobs were opened (R54, R155). One from QUIET abandons a SWAP not wholly sent (R76).
Leaving HALTED resumes the work: a full sweep that is due starts, a queued REVERT or due activation probe and a due recovery
probe are sent, and the close checks, the background erase and a reload ask for their flash operations again (R158, R176). -/
def Obligations.SetModeChangesTheMode : Prop :=
  ∀ (s : State) (p : Port) (m : Nat) (mode : Mode), accepts s (.setMode p m) = true →
    (m = 0 ∧ mode = .inService ∨ m = 1 ∧ mode = .yard ∨ m = 2 ∧ mode = .quiet) →
    (s.halted = true → s.veh.asserted = false) →
    ∃ t, exec (.setMode p m) s = .next t ∧
      t.veh = { mode := mode, hold := if mode = .inService then none else some 300000, cause := none,
                asserted := s.veh.asserted, run := s.veh.run } ∧
      (t.port p).reply = some ⟨.done, .empty⟩ ∧
      Work (({ s with veh := t.veh }).replied p .done .empty) t ∧
      (s.halted = false → Settled (({ s with veh := t.veh }).replied p .done .empty) t) ∧
      (s.veh.mode = .quiet → mode ≠ .quiet → ∀ l x, (t.line l).exchange = some x → swapUnsent x = false) ∧
      (mode = .inService → s.veh.mode = .yard ∨ s.veh.mode = .quiet →
        ∀ l tag, tag ∈ (s.line l).openSet → (s.job tag).isSome = true → tag ∉ (t.line l).openSet ∧
          ∀ n x, (t.line n).exchange = some x → x.purpose.tag ≠ some tag) ∧
      (mode = .inService → (s.veh.mode = .yard ∨ s.veh.mode = .quiet) → NoRetiring s → (∀ l, OpenLegal s l) →
        ∀ l, Parked s t l fun _ _ => True) ∧
      (s.halted = true → DirectoryLegal s → s.eng.op = none → s.eng.suspended = none →
        (∀ l, (s.line l).exchange = none) → s.linesRun = true →
        (∀ l, (s.line l).fullDue = true → (s.line l).state = .active → (t.line l).sweep =
          some { kind := .full, cursor := 1, lastProbe := s.now, fullPosted := false }) ∧
        (∀ l, (s.line l).state = .faulted → (s.line l).recoveryDue = true →
          ∃ y, (t.line l).exchange = some y ∧ y.purpose = .recoveryProbe) ∧
        (let reverts (e : Entry) := e.revert = .queued ∧ (e.state = .fallback ∨ e.state = .held)
         let probes (e : Entry) := e.activating = true ∧ ∃ d, e.probeDue = some d ∧ d ≤ s.now
         ∀ l k e, (s.line l).state = .active → s.entry k = some e → k < 32 → e.line = l → (reverts e ∨ probes e) →
          (∀ n f, n < k → s.entry n = some f → f.line = l → ¬ reverts f ∧ ¬ probes f) →
          ∃ y, (t.line l).exchange = some y ∧ y.address = e.address ∧ (reverts e → y.purpose = .revert k) ∧
            (¬ reverts e → y.purpose = .activationProbe k)) ∧
        (∀ r, r ∈ s.store.images → r.state = .checking → r.markPending = false → s.eng.checking r.id = false →
          ({ imageId := r.id, block := r.checkNext } : CheckRead) ∈ t.eng.checks ∨
            t.eng.op = some (.checkRead { imageId := r.id, block := r.checkNext } true)) ∧
        (∀ x, s.store.dirty.head? = some x → s.eng.class5 = none → t.eng.class5 = some x ∨ t.eng.op = some (.erase x)) ∧
        (∀ q, s.settings.op = .reloading q → s.eng.class4 = none → Class4Asked t .settingsRead))

/-- SET MODE naming HALTED, POWER WARNING, and the third active sample of PWRWARN_N in a row make the mode HALTED with their
cause, end every exchange, park the open jobs (R54, R55) and stop the Flash Engine, which hands back every request but the start-up
reads (R131, R150, R156, R157): a waiting block returns to MISSING and its WRITE BLOCK is answered HALTED, a waiting identity
field's tag state is NONE again, an intake program in progress damages its image with STORE_FAULT, a close mark ends its close,
its image DAMAGED and CLOSE_FAILED set on every port, a drop mark is over, and a save fails and leaves no valid record (R131, R134, R137, R175; the contents of
extent 0 by log entry 33). Already HALTED, the two orders change no vehicle state and are answered DONE (R153, R157). -/
def Obligations.HaltedStopsTheWork : Prop :=
  (∀ (s : State) (c : Instr) (cause : HaltCause), s.halted = false →
      ((∃ p, c = .setMode p 3) ∧ accepts s c = true ∧ cause = .setMode ∨
        (∃ p, c = .powerWarning p) ∧ accepts s c = true ∧ cause = .order ∨
        (c = .pwrwarnSample true ∨ c = .pwrwarnAsserted) ∧ s.veh.asserted = false ∧ s.veh.run = 2 ∧ cause = .pin) →
      ∃ t, exec c s = .next t ∧
        t.veh.mode = .halted ∧ t.veh.hold = none ∧ t.veh.cause = some cause ∧
        (cause = .pin → t.veh.asserted = true ∧ t.veh.run = 0) ∧
        (∀ l, (t.line l).exchange = none ∧
          ∀ tag, tag ∈ (s.line l).openSet → (s.job tag).isSome = true → tag ∉ (t.line l).openSet) ∧
        (NoRetiring s → (∀ l, OpenLegal s l) → ∀ l, Parked s t l fun _ _ => True) ∧
        t.eng.op = none ∧ t.eng.suspended = none ∧ t.eng.suspCount = 0 ∧ t.eng.hold = true ∧ t.eng.readA = none ∧
        t.eng.readB = none ∧ t.eng.programs = [] ∧ t.eng.checks = [] ∧ t.eng.class5 = none ∧
        (∀ op, t.eng.class4 = some op → op = .settingsRead ∨ ∃ x, op = .tagRead x) ∧
        (flashWf s.flash = true → ∀ a, (∀ op, s.eng.class4 = some op → op.recordCount.isSome = true → 4096 ≤ a) →
          (∀ op, s.eng.op = some op ∨ s.eng.suspended = some op → op.covers a = false) →
            flashRead t.flash a = flashRead s.flash a) ∧
        (DirectoryLegal s → (∀ p, s.eng.suspended ≠ some (.program p)) →
          let alone (id : Nat) := ∀ q, q ∈ s.eng.programs ∨ s.eng.op = some (.program q) → q.image = id →
            q.kind = .identity ∨ ∃ b tk, q.kind = .block b tk
          (∀ p r, p ∈ s.eng.programs → s.image p.image = some r → r.state = .receiving → alone r.id →
            (∀ q, s.eng.op = some (.program q) → q.image ≠ r.id) →
            ∃ q, t.image r.id = some q ∧
              (∀ b tk, p.kind = .block b tk → (b < r.blocks.length → q.blocks[b]? = some .missing) ∧
                ((s.port tk.port).seq = tk.seq → c ≠ .setMode tk.port 3 → c ≠ .powerWarning tk.port →
                  (∀ i, i ∈ s.store.images → tk ∉ i.droppers) →
                  (t.port tk.port).reply = some ⟨.halted, .empty⟩)) ∧
              (p.kind = .identity → p.position < r.tags.length → q.tags[p.position]? = some .noTag)) ∧
          (∀ p r, s.eng.op = some (.program p) → p.live = true → s.image p.image = some r → r.state = .receiving →
            alone r.id →
            (∃ q, t.image r.id = some q ∧ q.state = .damaged ∧ q.intake = none) ∧
            (p.kind = .identity → Posted s t (.storeFault p.extent .tagAbandoned (some r.id))) ∧
            (∀ b tk, p.kind = .block b tk → Posted s t (.storeFault p.extent .pageAbandoned (some r.id)))) ∧
          (∀ p r, p.kind = .closeMark → p.live = true → s.image p.image = some r → r.state = .checking →
            r.dropped = false →
            (s.eng.op = some (.program p) ∧ (∀ q, q ∈ s.eng.programs → q.image ≠ r.id) ∨
              (∀ q, s.eng.op = some (.program q) → q.image ≠ r.id) ∧
                s.eng.programs.filter (fun q => q.image == r.id) = [p]) →
            (∃ q, t.image r.id = some q ∧ q.state = .damaged) ∧ (∀ x, (t.port x).slot ≠ some (.closeImage r.id)) ∧
              ∀ x v, (t.port x).flags[15]? = some v → v.isSet = true) ∧
          (∀ p r, (s.eng.op = some (.program p) ∨ p ∈ s.eng.programs) → p.kind = .dropMark → p.live = true →
            s.image p.image = some r → r.state = .retiring →
            (∀ q, q ∈ s.eng.programs ∨ s.eng.op = some (.program q) → q.image = r.id → q.kind = .dropMark) →
            ∀ q, t.image r.id = some q → q.markPending = false ∧ q.droppers = [])) ∧
        (∀ x, s.settings.op = .saving x → flashWf s.flash = true →
          ([s.eng.op, s.eng.suspended, s.eng.class4].filter fun o => o.any fun op => op.recordCount.isSome).length = 1 →
          (∀ op a, s.eng.op = some op ∨ s.eng.suspended = some op → op.recordCount = none → a < 1024 →
            op.covers a = false) →
          t.settings.op = .idle ∧ (t.port x).slot = none ∧ Posted s t (.saveDone .save true false) ∧
          readRecord (flashReadRange t.flash 0 1024) = none) ∧
        List.Forall₂ SlotSettled s.roster t.roster ∧ t.time = s.time ∧ t.guardTime = s.guardTime ∧
        t.heldSerials = s.heldSerials ∧ t.profiles = s.profiles ∧ t.rules = s.rules ∧ t.yardPins = s.yardPins ∧
        t.servicePins = s.servicePins) ∧
  (∀ (s : State) (p : Port) (c : Instr), s.halted = true → (c = .setMode p 3 ∨ c = .powerWarning p) →
      accepts s c = true → ∃ t, exec c s = .next t ∧ Settled (s.replied p .done .empty) t)

/-- The warning filter: a sample that agrees with the level clears the run, one that disagrees raises it, and the third
inactive one in a row makes the level CLEAR and leaves the mode (R156). A sample lets 100 us pass (the model's clock, log
entry 1). PWRWARN_ASSERTED and PWRWARN_CLEARED are the sample that turns the level (log entry 6). -/
def Obligations.SamplesDriveTheWarningFilter : Prop :=
  ∀ s : State,
    (∀ a, a = s.veh.asserted → ∃ t, exec (.pwrwarnSample a) s = .next t ∧
      Settled ({ s.advance 1 with veh := { s.veh with hold := s.veh.hold.map (· - 1), run := 0 } }) t) ∧
    (∀ a, a ≠ s.veh.asserted → s.veh.run < 2 → ∃ t, exec (.pwrwarnSample a) s = .next t ∧
      Settled ({ s.advance 1 with veh := { s.veh with hold := s.veh.hold.map (· - 1), run := s.veh.run + 1 } }) t) ∧
    (s.veh.asserted = true → s.veh.run = 2 → ∃ t, exec (.pwrwarnSample false) s = .next t ∧
      exec .pwrwarnCleared s = .next t ∧
      Settled ({ s.advance 1 with
        veh := { s.veh with hold := s.veh.hold.map (· - 1), asserted := false, run := 0 } }) t) ∧
    (s.veh.asserted = false → s.veh.run = 2 → exec .pwrwarnAsserted s = exec (.pwrwarnSample true) s)

/-- MODE_HOLD_EXPIRY: the mode lapses to IN_SERVICE, the hold becomes absent, the open jobs park (R54), and MODE_EXPIRED is
posted naming the mode that lapsed (R154, R155). The hold's time passes on the model's clock (log entry 1). -/
def Obligations.ModeHoldLapsesToInService : Prop :=
  ∀ (s : State) (h : Nat), s.veh.hold = some h → (s.veh.mode = .yard ∨ s.veh.mode = .quiet) →
    ∃ t, exec .modeHoldExpiry s = .next t ∧
      t.veh = { mode := .inService, hold := none, cause := none, asserted := s.veh.asserted, run := s.veh.run } ∧
      Posted s t (.modeExpired s.veh.mode) ∧
      Settled (({ s.advance h with veh := t.veh }).post (.modeExpired s.veh.mode)) t ∧
      (∀ l tag, tag ∈ (s.line l).openSet → (s.job tag).isSome = true → tag ∉ (t.line l).openSet) ∧
      (NoRetiring s → (∀ l, OpenLegal s l) → ∀ l, Parked s t l fun _ _ => True)

/-- ONE_SECOND_TICK takes the pending countdown or lowers the countdown, advances the depot time and the running boot timers, and
judges the window: CLOSED at or below the guard, with WINDOW_CUTOFF posted when it closes (R96, R98, R99, R110, R167). The
closing parks the open jobs of both lines, at once or by their parking flag, as the table of R56 says (the cases that its
table leaves out by log entry 18). WINDOW_CUTOFF is that judgement by itself (log entry 15): an OPEN window whose countdown is
at or below the guard closes, with the same effects. The tick's time passes on the model's clock (log entry 1). -/
def Obligations.TicksAndCutoffsJudgeTheWindow : Prop :=
  (∀ s : State,
      let c := match s.time.upcoming with
        | some v => v
        | none => s.time.countdown.map (· - 1)
      ∃ t, exec .oneSecondTick s = .next t ∧
        t.time.countdown = c ∧ t.time.upcoming = none ∧ t.time.depotTime = (s.time.depotTime + 1) % 4294967296 ∧
        t.time.depotSet = s.time.depotSet ∧ t.time.nextTick = s.time.nextTick + 10000 ∧
        (t.time.window = .closed ↔ ∃ n, c = some n ∧ n ≤ s.guardTime) ∧
        (s.time.window = .opened → t.time.window = .closed →
          Posted s t (.windowCutoff (c.getD 0) s.guardTime)) ∧
        (s.time.window = .opened → t.time.window = .closed → NoRetiring s → (∀ l, OpenLegal s l) → CutOff s t) ∧
        (s.time.window = .closed ∨ t.time.window = .opened → NotPosted s t 10) ∧
        t.roster.length = s.roster.length ∧
        (∀ i, s.entry i = none → t.entry i = none) ∧
        (∀ i e, s.entry i = some e → ∃ f, t.entry i = some f ∧ EntrySettled { e with bootTimer := f.bootTimer } f ∧
          f.bootTimer = if s.halted = true ∨ (s.line e.line).state ≠ .active then e.bootTimer
            else e.bootTimer.map fun b => { b with seconds := b.seconds - 1 }) ∧
        t.veh = { s.veh with hold := s.veh.hold.map (· - (s.time.nextTick - s.now)) } ∧
        t.guardTime = s.guardTime ∧ t.flash = s.flash ∧ t.profiles = s.profiles ∧ t.rules = s.rules ∧
        t.yardPins = s.yardPins ∧ t.servicePins = s.servicePins ∧ t.heldSerials = s.heldSerials) ∧
  (∀ (s : State) (n : Nat), s.time.window = .opened → s.time.countdown = some n → n ≤ s.guardTime →
      ∃ t, exec .windowCutoff s = .next t ∧
        Posted s t (.windowCutoff n s.guardTime) ∧
        Settled (({ s with time := { s.time with window := .closed } }).post (.windowCutoff n s.guardTime)) t ∧
        (∀ l tag j, tag ∈ (s.line l).openSet → s.job tag = some j → j.state = .ready → tag ∉ (t.line l).openSet) ∧
        (NoRetiring s → (∀ l, OpenLegal s l) → CutOff s t))

/-! ### The orders of the lines -/

/-- SET LINE stores each value clamped, and the guard; a cleared enable flag disables the line, a set one enables it, a
lowered open limit parks the newest-opened jobs down to it, and the window is judged by the guard (R43, R54, R85, R86, R98).
A window that closes posts WINDOW_CUTOFF and parks the open jobs (R56, R99; after a lowered open limit by log entry 45). A
line that is disabled loses all its jobs without JOB_FAILED, their LOADING entries going to PENDING, with its line buffer and
its timers (R62, R86). A SWEEP NOW that waited for the line's full sweep has its part cut off: with no part outstanding any
more, SWEEP_DONE is posted to the ordering port with the outcomes of its lines, and its slot is empty (R17, R165, R168). -/
def Obligations.SetLineStoresClampedSettings : Prop :=
  ∀ (s : State) (p : Port) (n : Nat) (l : Line) (a : LineArgs) (g : Nat), accepts s (.setLine p n a g) = true →
    (n = 0 ∧ l = .A ∨ n = 1 ∧ l = .B) → a.enable ≤ 1 →
    let x : LineSettings :=
      { rate := min 3 a.rate, timeout := max 100 (min 5000 a.timeout) / 100 * 100, retry := min 7 a.retry,
        openLimit := max 1 (min 4 a.openLimit), swapLimit := max 1 (min 4 a.swapLimit), interval := min 3 a.interval,
        enable := a.enable != 0 }
    ∃ t, exec (.setLine p n a g) s = .next t ∧
      (t.line l).settings = x ∧ (t.line (otherLine l)).settings = (s.line (otherLine l)).settings ∧
      t.guardTime = min 3600 g ∧
      (t.port p).reply = some ⟨.done, .lines t.lineA.settings t.lineB.settings t.guardTime⟩ ∧
      (t.time.window = .closed ↔ ∃ c, s.time.countdown = some c ∧ c ≤ min 3600 g) ∧
      (∀ c, s.time.window = .opened → s.time.countdown = some c → c ≤ min 3600 g →
        Posted s t (.windowCutoff c (min 3600 g)) ∧
        (a.enable = 1 → (s.line l).state ≠ .disabled → (s.line l).settings.openLimit ≤ x.openLimit → NoRetiring s →
          (∀ m, OpenLegal s m) → CutOff s t)) ∧
      (s.time.window = .closed ∨ t.time.window = .opened → NotPosted s t 10) ∧
      (t.line (otherLine l)).state = (s.line (otherLine l)).state ∧
      (a.enable = 0 → (s.line l).state ≠ .disabled →
        (t.line l).state = .disabled ∧ (t.line l).exchange = none ∧ (t.line l).sweep = none ∧ (t.line l).run = 0 ∧
        (t.line l).charges = [] ∧ (t.line l).buffer = none ∧ (t.line l).sweepTimer = none ∧
        (t.line l).recoveryTimer = none ∧ (t.line l).stats = (s.line l).stats ∧ NotPosted s t 9 ∧
        (∀ tag j e, tag < 24 → t.job tag = some j → t.entry j.slot = some e → e.line ≠ l) ∧
        (TagsStand s l → (t.line l).openSet = [] ∧ (t.line l).ready = [] ∧ (t.line l).queued = []) ∧
        (∀ tag j e, NoRetiring s → tag < 24 → s.job tag = some j → s.entry j.slot = some e → e.line = l →
          e.serial = j.serial → e.state = .loading → ∃ f, t.entry j.slot = some f ∧ f.state ≠ .loading ∧
            ∀ q r, e.target = some q → s.image q.imageId = some r → r.state = .stored →
              f = { e with state := .pending })) ∧
      (a.enable = 1 → (s.line l).state = .disabled →
        (t.line l).state = .active ∧ (t.line l).run = 0 ∧
        (s.linesRun = true → (t.line l).sweep =
          some { kind := .full, cursor := 1, lastProbe := s.now, fullPosted := false })) ∧
      (a.enable = 1 → (s.line l).state ≠ .disabled →
        (t.line l).state = (s.line l).state ∧ (t.line l).run = (s.line l).run ∧
        (t.line l).charges = (s.line l).charges) ∧
      (x.openLimit < (s.line l).settings.openLimit → (s.line l).openSet.Nodup →
        (∀ tag, tag ∈ (s.line l).openSet → (s.job tag).isSome = true) →
        (t.line l).openSet.length ≤ x.openLimit) ∧
      (a.enable = 1 → (s.line l).state ≠ .disabled → x.openLimit < (s.line l).settings.openLimit → NoRetiring s →
        (s.line l).openSet.Nodup →
        (∀ tag, tag ∈ (s.line l).openSet → (s.job tag).isSome = true ∧ OnlyOn s l tag) →
        x.openLimit < (s.line l).openSet.length →
        (s.time.window = .closed ∨ ∀ c, s.time.countdown = some c → min 3600 g < c) →
        (t.line l).openSet = (s.line l).openSet.take x.openLimit ∧
          ((∀ m, OpenLegal s m) → Parked s t l fun tag _ => tag ∈ (s.line l).openSet.drop x.openLimit)) ∧
      SweepParts s t (if a.enable = 0 ∧ (s.line l).state ≠ .disabled then onLine l .cut else fun _ => none) ∧
      List.Forall₂ SlotSettled s.roster t.roster ∧ t.veh = s.veh ∧ t.flash = s.flash ∧
      t.heldSerials = s.heldSerials ∧ t.profiles = s.profiles ∧ t.rules = s.rules ∧ t.yardPins = s.yardPins ∧
      t.servicePins = s.servicePins

/-- RESET LINE clears the line's run, charges and counters, parks its open jobs (an arbiter may open one again at once),
brings a FAULTED line back with LINE_RECOVERED, and starts a full sweep on a line that is not DISABLED; in HALTED that sweep
is due (R55, R83, R88; log entry 26). The sweep that starts is the one that a SWEEP NOW outstanding on the line waits for: no
part ends and no SWEEP_DONE is posted, but for a SWEEP NOW with no part outstanding (R17, R88). -/
def Obligations.ResetLineRestartsTheLine : Prop :=
  ∀ (s : State) (p : Port) (n : Nat) (l : Line), accepts s (.resetLine p n) = true →
    (n = 0 ∧ l = .A ∨ n = 1 ∧ l = .B) →
    ∃ t, exec (.resetLine p n) s = .next t ∧ (t.port p).reply = some ⟨.done, .empty⟩ ∧
      (t.line l).settings = (s.line l).settings ∧ (t.line l).run = 0 ∧ (t.line l).charges = [] ∧
      (t.line l).stats =
        { framesSent := (t.line l).stats.framesSent, goodReplies := 0, noReplies := 0, parityErrors := 0,
          framingErrors := 0, crcErrors := 0, retries := 0, blocksDelivered := 0 } ∧
      ((s.line l).state = .disabled → (t.line l).state = .disabled ∧ (t.line l).sweep = none) ∧
      ((s.line l).state ≠ .disabled → (t.line l).state = .active ∧ (t.line l).recoveryTimer = none) ∧
      ((s.line l).state ≠ .disabled → s.halted = false → (t.line l).sweep =
        some { kind := .full, cursor := 1, lastProbe := s.now, fullPosted := false }) ∧
      ((s.line l).state ≠ .disabled → s.halted = true → (t.line l).sweep = none ∧ (t.line l).fullDue = true) ∧
      ((s.line l).state = .faulted → Posted s t (.lineRecovered l)) ∧
      ((s.line l).state ≠ .faulted → NotPosted s t 12) ∧ (SweepParts s t fun _ => none) ∧
      (NoRetiring s → ∀ tag j, tag ∈ (s.line l).openSet → s.job tag = some j → ∃ k, t.job tag = some k ∧
        (k.state = .queued ∨ k.state = .starting) ∧
        k = { j with state := k.state, wait := none, pollDue := none, retriesUsed := 0, busyElapsed := 0, busyLimit := 0
                     parking := false, deferred := k.deferred, everOpened := k.everOpened }) ∧
      LineSettled (s.line (otherLine l)) (t.line (otherLine l)) ∧
      List.Forall₂ SlotSettled s.roster t.roster ∧ t.veh = s.veh ∧ t.time = s.time ∧ t.guardTime = s.guardTime ∧
      t.flash = s.flash ∧ t.heldSerials = s.heldSerials ∧ t.profiles = s.profiles ∧ t.rules = s.rules ∧
      t.yardPins = s.yardPins ∧ t.servicePins = s.servicePins

/-! ### The orders of the plan and the roster -/

/-- SET PROFILE stores the clamped profile, profile 0 staying used with its class, looks every entry's profile up again, and
answers the profile as stored (R11, R22, R32): the lowest used profile of 1 to 15 with the entry's class code, else profile
0. The estimate takes the seed when the index changes, or the seed of the profile kept, and stands otherwise. All units are
resolved (R32, R34 to R36), and what becomes of each unit's job is what R37 says: kept with its progress when the target
still leaves the unit PENDING or LOADING and names the job's image, moved to the queue of another class when the priority has
changed, and removed otherwise. -/
def Obligations.SetProfileStoresTheProfile : Prop :=
  ∀ (s : State) (p : Port) (i : Nat) (a : ProfileArgs), accepts s (.setProfile p i a) = true → a.used ≤ 1 → i ≤ 15 →
    s.profiles.length = 16 →
    let old := s.profile i
    let new : Profile :=
      { used := if i = 0 then true else a.used != 0, cls := if i = 0 then old.cls else a.cls,
        burst := if a.burst < 2 then 1 else if a.burst < 4 then 2 else if a.burst < 8 then 4 else 8,
        seed := max 1 (min 20000 a.seed), erase := a.erase, verify := a.verify, boot := max 5 a.boot }
    let u : State := { s with profiles := s.profiles.set i new }
    ∃ t, exec (.setProfile p i a) s = .next t ∧ t.profile i = new ∧ (∀ k, k ≠ i → t.profile k = s.profile k) ∧
      (t.port p).reply = some ⟨.done, .profile new⟩ ∧
      (∀ k e, s.entry k = some e → ∃ f, t.entry k = some f ∧ ProfileFor t.profiles e.classCode f.profile ∧
        f.estimate = if f.profile ≠ e.profile ∨ f.profile = i ∧ new.seed ≠ old.seed then (t.profile f.profile).seed
          else e.estimate) ∧
      (DirectoryLegal s → Resolved u t ∧ JobsResolved u t) ∧
      Settled ((u.lookupAll (if new.seed ≠ old.seed then some i else none)).replied p .done (.profile new)) t

/-- SET RULE inserts its rule at the position clamped to the count, with RANGE and NO_ROOM for what R25 refuses; REMOVE RULE
takes out the rule at a position below the count; PIN UNIT writes the slot's pin of the port's kind and the record of its
serial, and UNPIN UNIT removes both. Each is answered DONE after resolution, of all units for the rules and of the one unit
for its pin, and changes nothing else (R25, R26, R28 to R32). What becomes of a resolved unit's job is what R37 says: kept
with its progress when the target leaves the unit PENDING or LOADING and names the job's image, moved to the queue of another
class when the priority has changed (a job never opened to its tail, a parked one to its head), and removed otherwise; a pin
leaves the other units' jobs as they were. A downgrade flag above 1 is RANGE (R181); that it is tested before the rule's
other checks is the model's choice (log entry 11). -/
def Obligations.PlanAndPinOrdersTakeEffect : Prop :=
  (∀ (s : State) (n : Nat) (a : RuleArgs), s.armed .Y = false →
    (s.starting = true → ∃ t, exec (.setRule .Y n a) s = .next t ∧ Answered s t .Y ⟨.starting, .empty⟩) ∧
    (s.starting = false →
      (1 < a.downgrade ∨ 3 < a.prio ∨ a.imageId = 0 ∨ a.hwMax < a.hwMin →
        ∃ t, exec (.setRule .Y n a) s = .next t ∧ Answered s t .Y ⟨.range, .empty⟩) ∧
      (a.downgrade ≤ 1 → a.prio ≤ 3 → a.imageId ≠ 0 → a.hwMin ≤ a.hwMax → 16 ≤ s.rules.length →
        ∃ t, exec (.setRule .Y n a) s = .next t ∧ Answered s t .Y ⟨.noRoom, .empty⟩) ∧
      (a.downgrade ≤ 1 → a.prio ≤ 3 → a.imageId ≠ 0 → a.hwMin ≤ a.hwMax → s.rules.length < 16 →
        ∃ t, exec (.setRule .Y n a) s = .next t ∧
          t.rules.length = s.rules.length + 1 ∧
          (∀ k, k < min n s.rules.length → t.rules[k]? = s.rules[k]?) ∧
          t.rules[min n s.rules.length]? = some
            { cls := a.cls, hwMin := a.hwMin, hwMax := a.hwMax, imageId := a.imageId, prio := a.prio,
              downgrade := a.downgrade != 0 } ∧
          (∀ k, min n s.rules.length ≤ k → t.rules[k + 1]? = s.rules[k]?) ∧
          (t.port .Y).reply = some ⟨.done, .position (min n s.rules.length)⟩ ∧
          (DirectoryLegal s → Resolved { s with rules := t.rules } t ∧ JobsResolved { s with rules := t.rules } t) ∧
          Settled (({ s with rules := t.rules }).resolveAll.replied .Y .done (.position (min n s.rules.length))) t ∧
          Settled (({ s with rules := t.rules }).replied .Y .done (.position (min n s.rules.length))) t))) ∧
  (∀ (s : State) (n : Nat), s.armed .Y = false →
    (s.starting = true → ∃ t, exec (.removeRule .Y n) s = .next t ∧ Answered s t .Y ⟨.starting, .empty⟩) ∧
    (s.starting = false →
      (s.rules.length ≤ n → ∃ t, exec (.removeRule .Y n) s = .next t ∧ Answered s t .Y ⟨.notFound, .empty⟩) ∧
      (n < s.rules.length → ∃ t, exec (.removeRule .Y n) s = .next t ∧
        t.rules.length + 1 = s.rules.length ∧
        (∀ k, k < n → t.rules[k]? = s.rules[k]?) ∧ (∀ k, n ≤ k → t.rules[k]? = s.rules[k + 1]?) ∧
        (t.port .Y).reply = some ⟨.done, .empty⟩ ∧
        (DirectoryLegal s → Resolved { s with rules := t.rules } t ∧ JobsResolved { s with rules := t.rules } t) ∧
        Settled (({ s with rules := t.rules }).resolveAll.replied .Y .done .empty) t ∧
        Settled (({ s with rules := t.rules }).replied .Y .done .empty) t))) ∧
  (∀ (s : State) (p : Port) (i : Nat) (e : Entry), i < 32 → s.entry i = some e →
    (∀ id prio n, accepts s (.pinUnit p i id prio n) = true → n ≤ 1 → prio ≤ 3 → id ≠ 0 →
      let pin : Pin := { imageId := id, prio := prio, noRetry := n != 0 }
      let f : Entry := if p = .S then { e with servicePin := some pin } else { e with yardPin := some pin }
      let u : State := { s.setEntry i (some f) with
        yardPins := if p = .S then s.yardPins else s.writePin s.yardPins e.serial pin
        servicePins := if p = .S then s.writePin s.servicePins e.serial pin else s.servicePins }
      ∃ t, exec (.pinUnit p i id prio n) s = .next t ∧ (t.port p).reply = some ⟨.done, .empty⟩ ∧
        pinFor (if p = .S then t.servicePins else t.yardPins) e.serial = some pin ∧
        (DirectoryLegal s → ResolvedAt u t i f ∧ JobResolvedAlone u t i f) ∧ Settled (u.replied p .done .empty) t) ∧
    (accepts s (.unpinUnit p i) = true →
      ((if p = .S then e.servicePin else e.yardPin) = none → exec (.unpinUnit p i) s = .next (s.replied p .done .empty)) ∧
      ((if p = .S then e.servicePin else e.yardPin).isSome = true →
        let f : Entry := if p = .S then { e with servicePin := none } else { e with yardPin := none }
        let u : State := { s.setEntry i (some f) with
          yardPins := if p = .S then s.yardPins else s.yardPins.filter fun r => r.serial != e.serial
          servicePins := if p = .S then s.servicePins.filter fun r => r.serial != e.serial else s.servicePins }
        ∃ t, exec (.unpinUnit p i) s = .next t ∧ (t.port p).reply = some ⟨.done, .empty⟩ ∧
          pinFor (if p = .S then t.servicePins else t.yardPins) e.serial = none ∧
          (DirectoryLegal s → ResolvedAt u t i f ∧ JobResolvedAlone u t i f) ∧ Settled (u.replied p .done .empty) t)))

/-- RELEASE UNIT takes a HELD entry off the held-serial list, with its fail count 0, its prior version gone and its REVERT
abandoned, and resolution decides its target, note and state (R19, R34 to R36). -/
def Obligations.ReleaseFreesAHeldUnit : Prop :=
  ∀ (s : State) (p : Port) (i : Nat) (e : Entry), accepts s (.releaseUnit p i) = true → i < 32 → s.entry i = some e →
    e.state = .held →
    ∃ t f, exec (.releaseUnit p i) s = .next t ∧ (t.port p).reply = some ⟨.done, .empty⟩ ∧ t.entry i = some f ∧
      f.state.resolvable = true ∧ f.failCount = 0 ∧ f.prior = none ∧ f.revert = .idle ∧ e.serial ∉ t.heldSerials ∧
      (∀ x, (t.line e.line).exchange = some x → x.purpose ≠ .revert i) ∧
      (let g : Entry := { e with state := .inStep, failCount := 0, prior := none, revert := .idle }
       let u : State := { s.setEntry i (some g) with heldSerials := s.heldSerials.filter (· != e.serial) }
       (DirectoryLegal s → ResolvedAt u t i g) ∧ Settled (u.replied p .done .empty) t)

/-- SWEEP NOW is accepted, covers each line as it stands, and starts a full sweep at address 1 on each ACTIVE line that has
none in progress (R13, R17). With no ACTIVE line it is complete at once. That the sweep has started, its cursor at address 1,
also in HALTED, where nothing is sent, is the model's reading (DEDUCED, log entry 30). -/
def Obligations.SweepNowStartsFullSweeps : Prop :=
  ∀ (s : State) (p : Port), accepts s (.sweepNow p) = true →
    let cover (l : Line) : Cover := match (s.line l).state with
      | .active => .outstanding
      | .faulted => .ended .cut
      | .disabled => .ended .notSwept
    ∃ t, exec (.sweepNow p) s = .next t ∧ (t.port p).reply = some ⟨.accepted, .empty⟩ ∧
      ((∃ l, (s.line l).state = .active) →
        (t.port p).slot = some (.sweepNow (cover .A) (cover .B)) ∧
        (t.port p).flags[13]? = (s.port p).flags[13]?) ∧
      ((∀ l, (s.line l).state ≠ .active) → (t.port p).slot = none ∧
        ∀ (f : EventFlag), (s.port p).flags[13]? = some f → ∃ a b, (t.port p).flags[13]? =
          some { isSet := true, count := min 255 (f.count + 1), qual := some (.sweepDone a b) } ∧
          cover .A = .ended a ∧ cover .B = .ended b) ∧
      (∀ l, (s.line l).state = .active → (∀ w, (s.line l).sweep = some w → w.kind = .roster) →
        (t.line l).sweep = some { kind := .full, cursor := 1, lastProbe := s.now, fullPosted := false }) ∧
      (∀ l w, (s.line l).sweep = some w → w.kind = .full → (t.line l).sweep = some w) ∧
      Work (s.replied p .accepted .empty) t ∧ List.Forall₂ SlotSettled s.roster t.roster ∧
      t.heldSerials = s.heldSerials

/-! ### The orders of the image store and the settings -/

/-- OPEN IMAGE, its checks passed, takes ceil(length/15) extents from the head of the free list, adds a RECEIVING record at
the directory's end with every block MISSING, answers DONE with the extent count, and posts STORE_LOW when the free count
falls below 64 (R125, R127). Nothing else changes. -/
def Obligations.OpenImageTakesExtents : Prop :=
  ∀ (s : State) (p : Port) (id cls lo hi len : Nat) (v : Version) (crc : Word32),
    accepts s (.openImage p id cls lo hi v len crc) = true → id ≠ 0 → 1 ≤ len → len ≤ 4080 → lo ≤ hi →
    s.image id = none → (∀ r ∈ s.store.images, r.state = .receiving → r.intake ≠ some p) →
    s.store.images.length < 24 → len ≤ 15 * s.store.free.length →
    let n := (len + 14) / 15
    ∃ (t : State) (r : Image), exec (.openImage p id cls lo hi v len crc) s = .next t ∧
      t.store = { s.store with images := s.store.images ++ [r], free := s.store.free.drop n } ∧
      r.id = id ∧ r.state = .receiving ∧ r.intake = some p ∧ r.cls = cls ∧ r.hwMin = lo ∧ r.hwMax = hi ∧
      r.version = v ∧ r.length = len ∧ r.crc = crc ∧ r.blocks = List.replicate len .missing ∧ r.received = 0 ∧
      r.extents = s.store.free.take n ∧ r.extents.length = n ∧ r.tags = List.replicate n .noTag ∧
      r.markPending = false ∧ r.markFailed = false ∧ r.jobCount = 0 ∧
      (t.port p).reply = some ⟨.done, .count n⟩ ∧
      (64 ≤ s.store.free.length → s.store.free.length - n < 64 → Posted s t
        (.storeLow (s.store.free.length - n) s.store.dirty.length s.store.bad.length)) ∧
      (s.store.free.length < 64 ∨ 64 ≤ s.store.free.length - n → NotPosted s t 16) ∧
      (∀ i, i ≠ 16 → NotPosted s t i) ∧
      Replied { s.port p with flags := (t.port p).flags } (t.port p) ⟨.done, .count n⟩ ∧
      (∀ q, q ≠ p → t.port q = { s.port q with flags := (t.port q).flags }) ∧
      t = { s with store := t.store, portY := t.portY, portV := t.portV, portS := t.portS }

/-- WRITE BLOCK of a MISSING block marks it WRITING and requests its programs in class 2, the extent's identity fields
first when they were never requested, at the block's page of its extent; its reply is PENDING (R123, R128, R129). The identity
fields are those of Table 12.8 with their CRC-16, for an image whose numbers fit their fields, as OPEN IMAGE takes in no other (R127, R181). It is
stated while the flash is busy or held, so that the requests are seen waiting. -/
def Obligations.WriteBlockRequestsItsPrograms : Prop :=
  ∀ (s : State) (p : Port) (id b x : Nat) (data : List Byte) (r : Image),
    accepts s (.writeBlock p id b data) = true → s.image id = some r → r.state = .receiving → r.intake = some p →
    b < r.length → r.blocks[b]? = some .missing → r.extents[b / 15]? = some x → FlashBusy s →
    ∃ (t : State) (q : Image) (w : Program), exec (.writeBlock p id b data) s = .next t ∧ t.image id = some q ∧
      q.blocks = r.blocks.set b .writing ∧
      q.tags = (if r.tags[b / 15]? = some .noTag then r.tags.set (b / 15) .writing else r.tags) ∧
      q = { r with blocks := q.blocks, tags := q.tags } ∧
      w.addr = x * 4096 + (b % 15 + 1) * 256 ∧ w.bytes = data ∧
      w.kind = .block b { port := p, seq := (s.port p).seq + 1 } ∧ w.image = id ∧ w.extent = x ∧ w.live = true ∧
      (r.tags[b / 15]? ≠ some .noTag → t.eng.programs = s.eng.programs ++ [w]) ∧
      (r.tags[b / 15]? = some .noTag → ∃ i : Program, t.eng.programs = s.eng.programs ++ [i, w] ∧
        i.kind = .identity ∧ i.addr = x * 4096 ∧ i.bytes = identityBytes r (b / 15) ∧ i.image = id ∧ i.extent = x ∧
        i.position = b / 15 ∧ i.live = true ∧ i.bytes.length = 14 ∧
        num16 i.bytes 12 = (crc16 (i.bytes.take 12)).toNat ∧ (id < 65536 → num16 i.bytes 0 = id) ∧
        (r.version.major < 256 → r.version.minor < 256 → r.version.build < 65536 →
          numVersion i.bytes 2 = r.version) ∧
        (r.length ≤ 4080 → num16 i.bytes 6 = r.length ∧ num16 i.bytes 8 = b / 15 ∧
          IsCeil r.length 15 (num16 i.bytes 10))) ∧
      (∀ k, k ≠ id → t.image k = s.image k) ∧ t.store.free = s.store.free ∧ t.store.dirty = s.store.dirty ∧
      t.store.bad = s.store.bad ∧ OnlyPort { s with store := t.store, eng := t.eng } t p ∧
      Replied (s.port p) (t.port p) ⟨.pending, .empty⟩

/-- CLOSE IMAGE of a wholly received image makes it CHECKING with its check at block 0, takes the port's long-order slot
and requests the first block's read (R132, R133, R165). It is stated while the flash is busy or held. -/
def Obligations.CloseImageStartsTheCheck : Prop :=
  ∀ (s : State) (p : Port) (id : Nat) (r : Image), accepts s (.closeImage p id) = true → s.image id = some r →
    r.state = .receiving → r.intake = some p → r.received = r.length → r.markPending = false → s.halted = false →
    s.eng.checking id = false → FlashBusy s →
    ∃ (t : State) (q : Image), exec (.closeImage p id) s = .next t ∧ t.image id = some q ∧
      q = { r with state := .checking, checkNext := 0, checkCrc := 0xFFFFFFFF } ∧
      ({ imageId := id, block := 0 } : CheckRead) ∈ t.eng.checks ∧
      (t.port p).reply = some ⟨.accepted, .empty⟩ ∧ (t.port p).slot = some (.closeImage id) ∧
      (t.port p).flags = (s.port p).flags ∧ (t.port p).mask = (s.port p).mask ∧
      (∀ k, k ≠ id → t.image k = s.image k) ∧ t.store.free = s.store.free ∧ t.store.dirty = s.store.dirty ∧
      t.store.bad = s.store.bad ∧ OnlyPort { s with store := t.store, eng := t.eng } t p

/-- DROP IMAGE by the record's state (R135, R136): a DAMAGED record leaves the directory; a RECEIVING one with its extents
becoming DIRTY, its waiting programs withdrawn and its waiting WRITE BLOCKs answered STATE; a CHECKING one the same with
CLOSE_FAILED, or when its pending mark has ended; a STORED one becomes RETIRING with its drop mark, 0x0000 at byte 128 of its
first extent's tag (Table 12.8), requested and pending, and its never-opened jobs gone (their order by log entry 44); a
RETIRING one is refused STATE. -/
def Obligations.DropImageByState : Prop :=
  ∀ (s : State) (p : Port) (id : Nat) (r : Image), accepts s (.dropImage p id) = true → s.image id = some r →
    (s.store.images.map Image.id).Nodup →
    ∃ t, exec (.dropImage p id) s = .next t ∧
      (r.state = .damaged → t.image id = none ∧ (t.port p).reply = some ⟨.done, .empty⟩) ∧
      (r.state = .receiving → t.image id = none ∧ (t.port p).reply = some ⟨.done, .empty⟩ ∧
        (s.store.dirty ++ r.extents) <+: t.store.dirty ∧ (∀ q ∈ t.eng.programs, q.image ≠ id) ∧
        (∀ k ∈ s.waitingWrites id, k.port ≠ p → (s.port k.port).seq = k.seq →
          (t.port k.port).reply = some ⟨.state, .empty⟩)) ∧
      (r.state = .checking → r.markPending = false → t.image id = none ∧
        (t.port p).reply = some ⟨.done, .empty⟩ ∧ (s.store.dirty ++ r.extents) <+: t.store.dirty ∧
        Posted s t (.closeFailed id .dropped) ∧ ∀ q, (t.port q).slot ≠ some (.closeImage id)) ∧
      (r.state = .checking → r.markPending = true → ∃ q, t.image id = some q ∧ q.state = .checking ∧
        q.dropped = true ∧ (t.port p).reply = some ⟨.pending, .empty⟩) ∧
      (r.state = .stored → r.extents ≠ [] → ∃ q, t.image id = some q ∧ q.state = .retiring ∧ q.markPending = true ∧
        (t.port p).reply = some ⟨.pending, .empty⟩ ∧
        (∀ tag j, tag < 24 → t.job tag = some j → j.imageId = id → j.everOpened = true) ∧
        ∀ x, r.extents[0]? = some x → ∃ w, ProgramAsked t w ∧ w.kind = .dropMark ∧ w.image = id ∧ w.extent = x ∧
          w.addr = x * 4096 + 128 ∧ w.bytes = [0x00#8, 0x00#8] ∧ w.live = true) ∧
      (r.state = .retiring → (t.port p).reply = some ⟨.state, .empty⟩ ∧ Settled (s.replied p .state .empty) t) ∧
      t.veh = s.veh ∧ t.flash = s.flash ∧ t.time = s.time ∧ t.profiles = s.profiles ∧ t.rules = s.rules ∧
      t.yardPins = s.yardPins ∧ t.servicePins = s.servicePins ∧ t.heldSerials = s.heldSerials ∧
      List.Forall₂ SlotSettled s.roster t.roster

/-- SAVE SETTINGS takes a snapshot of the record and requests the erase of extent 0; RELOAD SETTINGS requests the settings
read. Both take the port's long-order slot and are answered ACCEPTED; nothing else changes (R165, R175, R176). -/
def Obligations.SettingsOrdersStartTheirOperation : Prop :=
  ∀ (s : State) (p : Port),
    (accepts s (.saveSettings p) = true → s.halted = false → ∃ t, exec (.saveSettings p) s = .next t ∧
      t.settings = { op := .saving p, snapshot := s.record } ∧
      (t.eng.class4 = some .settingsErase ∨ t.eng.op = some .settingsErase) ∧
      (t.port p).reply = some ⟨.accepted, .empty⟩ ∧ (t.port p).slot = some .saveSettings ∧
      (t.port p).flags = (s.port p).flags ∧ (t.port p).mask = (s.port p).mask ∧
      OnlyPort { s with settings := t.settings, eng := t.eng } t p) ∧
    (accepts s (.reloadSettings p) = true → s.halted = false → ∃ t, exec (.reloadSettings p) s = .next t ∧
      t.settings = { s.settings with op := .reloading p } ∧
      (t.eng.class4 = some .settingsRead ∨ t.eng.op = some .settingsRead) ∧
      (t.port p).reply = some ⟨.accepted, .empty⟩ ∧ (t.port p).slot = some .reloadSettings ∧
      (t.port p).flags = (s.port p).flags ∧ (t.port p).mask = (s.port p).mask ∧
      OnlyPort { s with settings := t.settings, eng := t.eng } t p)

/-! ### Ports -/

/-- RESET is answered ACCEPTED and stands in the slot; a read that delivers that reply makes the full reset (R166). A read of
any other reply clocks out its frame, then 0xFF, delivers it when its last byte has been clocked out, and changes nothing
else. The Service port's frame timeout discards a partial frame and draws no reply, and the end of a frame on STXD delivers
its reply or starts the reply that waited behind it (R160, R161). -/
def Obligations.RepliesAreDeliveredAndResetTakesEffect : Prop :=
  (∀ s : State,
      (∀ p, accepts s (.reset p) = true → ∃ t, exec (.reset p) s = .next t ∧ OnlyPort s t p ∧
        (t.port p).reply = some ⟨.accepted, .empty⟩ ∧ (t.port p).slot = some .reset ∧
        (t.port p).flags = (s.port p).flags ∧ (t.port p).mask = (s.port p).mask) ∧
      (∀ p n, p ≠ .S → s.armed p = true → (s.port p).reply.isSome = true → (s.port p).frame.length ≤ n →
        exec (.replyRead p n) s = exec .fullReset s) ∧
      (∀ p n, p ≠ .S → s.armed p = false → ∃ t, exec (.replyRead p n) s = .next t ∧
        t = s.modPort p (fun q => { q with output := (t.port p).output, delivered := (t.port p).delivered }) ∧
        (t.port p).output.length = max n ((s.port p).frame.take n).length ∧
        (∀ i, i < n → (t.port p).output[i]? = some ((s.port p).frame.getD i 0xFF)) ∧
        ((t.port p).delivered = true ↔ (s.port p).delivered = true ∨
          ((s.port p).reply.isSome = true ∧ (s.port p).frame.length ≤ n)))) ∧
  (∀ s : State,
      exec .serviceFrameTimeout s = .next { s with portS := { s.portS with order := [] } } ∧
      (∀ r, s.portS.sending = some r → s.portS.unsent = false → exec .serviceReplySent s =
        .next { s with portS := { s.portS with output := replyFrame r, sending := none, delivered := true } }) ∧
      (∀ r, s.portS.sending = some r → s.portS.unsent = true → exec .serviceReplySent s =
        .next { s with portS := { s.portS with output := replyFrame r, sending := s.portS.reply, unsent := false } }))

/-- A frame that reaches a port whole is answered BAD_FRAME or BAD_ORDER when it is malformed, with nothing else changed, and is
carried out as the order it carries otherwise (R162). A length field that disagrees with the bytes or is outside 5 to 300,
or a CRC-16 that does not match, is BAD_FRAME on every port; a frame that decodes carries an order of its own port. On the
Yard port the first byte of a cycle says whether a frame or a reply read follows, and any other cycle changes nothing; on
the Service port characters that do not yet make a frame wait in the order buffer (R160, R181; log entry 24). -/
def Obligations.FramesAreJudged : Prop :=
  (∀ (s : State) (p : Port) (wire frame : List Byte), s.armed p = false →
      (p = .V ∧ wire = frame ∨ p = .Y ∧ wire = 1 :: frame ∨
        p = .S ∧ wire = frame ∧ s.portS.order = [] ∧ num16 frame 0 = frame.length ∧ 5 ≤ frame.length ∧
          frame.length ≤ 300) →
      (decodeOrder p frame = .error .badFrame →
        ∃ t, exec (.badFrame p wire) s = .next t ∧ Answered s t p ⟨.badFrame, .empty⟩) ∧
      (decodeOrder p frame = .error .badOrder →
        ∃ t, exec (.badFrame p wire) s = .next t ∧ Answered s t p ⟨.badOrder, .empty⟩) ∧
      (∀ c, decodeOrder p frame = .ok c → exec (.badFrame p wire) s = exec c s)) ∧
  (∀ (s : State) (b : Byte) (rest : List Byte),
      exec (.badFrame .Y []) s = .next s ∧
      exec (.badFrame .Y (2 :: rest)) s = exec (.replyRead .Y rest.length) s ∧
      (b ≠ 1 → b ≠ 2 → exec (.badFrame .Y (b :: rest)) s = .next s) ∧
      (let held := s.portS.order ++ rest
       held.length < 2 ∨ held.length < num16 held 0 →
        exec (.badFrame .S rest) s = .next { s with portS := { s.portS with order := held } })) ∧
  (∀ (p : Port) (f : List Byte),
      (num16 f 0 ≠ f.length ∨ 300 < f.length ∨ f.length < 5 → decodeOrder p f = .error .badFrame) ∧
      (num16 f 0 = f.length → 5 ≤ f.length → f.length ≤ 300 →
        (crc16 (f.take (f.length - 2))).toNat ≠ num16 f (f.length - 2) → decodeOrder p f = .error .badFrame) ∧
      (∀ c, decodeOrder p f = .ok c → ∃ o, orderTerms c = some o ∧ o.port = p))

/-! ### The wire and the failures -/

/-- FRAME_SENT: another BLOCK frame of the burst follows after the gap, or the wait for the reply begins (R64, R66).
INTERFRAME_GAP_END: the next BLOCK frame of the burst goes out, or an attempt that waited starts, each frame begun counted;
a SWAP that is no longer allowed is abandoned instead and its entry stands (R64, R69, R76, R83, R107). -/
def Obligations.WireEventsMoveTheExchange : Prop :=
  ∀ (s : State) (l : Line) (x : Exchange), (s.line l).exchange = some x →
    (∀ i, x.phase = .sending i → exec (.frameSent l) s = .next (s.modLine l fun e =>
      { e with
        quiet := false
        exchange := some { x with phase := if i + 1 < x.purpose.frames then .between (i + 1) else .awaiting } })) ∧
    (∀ i, x.phase = .between i → NoRetiring s → ∃ t, exec (.interframeGapEnd l) s = .next t ∧
      (t.line l).exchange = some { x with phase := .sending i } ∧
      (t.line l).stats =
        { (s.line l).stats with framesSent := min 65535 ((s.line l).stats.framesSent + 1) } ∧ Settled s t) ∧
    (x.phase = .gap → NoRetiring s → (∀ slot, x.purpose = .swap slot → s.swapAllowed slot = true) →
      ∃ t, exec (.interframeGapEnd l) s = .next t ∧
        (t.line l).exchange = some { x with phase := .sending 0, framesOut := true } ∧
        (t.line l).stats =
          { (s.line l).stats with framesSent := min 65535 ((s.line l).stats.framesSent + 1) } ∧ Settled s t) ∧
    (∀ slot, x.phase = .gap → NoRetiring s → x.purpose = .swap slot → s.swapAllowed slot = false →
      ∃ t, exec (.interframeGapEnd l) s = .next t ∧ Settled s t ∧
        ∀ y, (t.line l).exchange = some y → y.purpose ≠ .swap slot)

/-- An attempt that ends with no reply or a BAD one, with retries left, is made again: the retry is counted for the line,
the exchange and its job, and the counter that R67's first failing check names rises. Nothing is charged (R66 to R68, R83;
an IDENT of capacity 0 is BAD, R9). That the retry is counted, in the statistics and in the job, while the next attempt still
waits for the gap is the model's choice (log entry 35). -/
def Obligations.FailedAttemptsAreRetried : Prop :=
  ∀ (s : State) (l : Line) (x : Exchange), Awaits s l x → x.retries < x.limit → NoRetiring s →
    (∀ slot, x.purpose = .swap slot → s.swapAllowed slot = true) →
    (∀ tag, x.purpose.tag = some tag → OnlyOn s l tag) →
    ∀ (c : Instr) (st : Stats) (k : FailCause), AttemptFails (s.line l).stats l x c st k →
      ∃ (t : State) (y : Exchange), exec c s = .next t ∧ (t.line l).exchange = some y ∧
        y = { x with retries := x.retries + 1, phase := y.phase, framesOut := y.framesOut } ∧
        (y.phase = .gap ∨ y.phase = .sending 0 ∧ y.framesOut = true) ∧
        (t.line l).stats =
          { st with retries := min 65535 (st.retries + 1), framesSent := (t.line l).stats.framesSent } ∧
        (∀ tag j, x.purpose.tag = some tag → s.job tag = some j → t.job tag = some { j with retriesUsed := x.retries + 1 }) ∧
        (t.line l).run = (s.line l).run ∧ (t.line l).charges = (s.line l).charges ∧
        (t.line l).buffer = (s.line l).buffer ∧ (t.line l).state = (s.line l).state ∧ Work s t ∧
        List.Forall₂ SlotSettled s.roster t.roster ∧ t.heldSerials = s.heldSerials

/-- An exchange whose last attempt has failed, NO_REPLY or BAD, by what it was made for (R13, R14, R60, R68, R77, R78, R111):
a job's is failed with JOB_FAILED, its cause and a pending charge, and the job is removed, its tag free or given to a job
created since, its image's job count one lower, its LOADING entry PENDING or as resolution leaves it (R44, R45, R58, R59); a
SWAP leaves a charge, a REVERT is over, a sweep probe misses its entry, a full-sweep probe at an address that no entry holds
only moves the sweep on, an activation probe only sets the next one due, and a recovery probe changes nothing. The run rises
by 1 where Table 4.3 says failure. The full-sweep probe of address 47 ends the sweep: the line's part of each outstanding
SWEEP NOW is COMPLETE, SWEEP_DONE is posted to the ordering port and its slot emptied when no part is outstanding any more,
and the start-up phase ends with STARTED when no start-up sweep is left (R12, R17, R165, R168, R177); a probe of a lower
address ends no part. -/
def Obligations.FailedExchangesAreAccounted : Prop :=
  ∀ (s : State) (l : Line) (x : Exchange) (c : Instr) (st : Stats) (k : FailCause), Awaits s l x →
    x.limit ≤ x.retries → AttemptFails (s.line l).stats l x c st k →
    let ended (q : LineEngine) : LineEngine := { q with exchange := none, buffer := none, stats := st }
    ∃ t, exec c s = .next t ∧ ReplyTaken t l ∧
      ((s.line l).state = .active → (s.line l).run < 3 →
        (∀ tag j, x.purpose.tag = some tag → s.job tag = some j →
          (t.line l).run = (s.line l).run + 1 ∧
          (t.line l).charges = (s.line l).charges ++ [{ slot := j.slot, serial := j.serial }] ∧
          Posted s t (.jobFailed j.slot tag j.imageId k.jobCause j.next) ∧ JobEnded s t tag j ∧
          (∀ e, s.entry j.slot = some e → e.serial = j.serial → FellBack s t j.slot e false) ∧
          List.Forall₂ SlotSettled s.roster t.roster) ∧
        (∀ slot, x.purpose = .swap slot → Settled (s.modLine l fun q =>
          { ended q with run := q.run + 1, charges := q.charges ++ [{ slot := slot, serial := x.serial }] }) t) ∧
        (∀ slot e, x.purpose = .revert slot → s.entry slot = some e → Settled ((s.modLine l fun q =>
          { ended q with run := q.run + 1 }).setEntry slot (some { e with
            revert := .idle
            probeDue := if e.activating then some (s.now + 10000) else e.probeDue })) t) ∧
        (∀ slot e, (x.purpose = .rosterProbe slot ∨ x.purpose = .fullProbe ∧ s.slotAt l x.address = some slot) →
          s.entry slot = some e →
          (t.line l).run = (s.line l).run + 1 ∧ (t.line l).charges = (s.line l).charges ∧
          (e.activating = true → ∃ f, t.entry slot = some f ∧ EntrySettled e f) ∧
          (e.activating = false → (∃ f, t.entry slot = some f ∧ EntrySettled
            { e with missed := min 15 (e.missed + 1)
                     presence := if e.missed + 1 < 3 then .silent else .absent } f) ∧
            (e.missed = 2 → Posted s t (.unitLost slot)) ∧ (e.missed ≠ 2 → NotPosted s t 2)))) ∧
      (∀ slot e, x.purpose = .activationProbe slot → s.entry slot = some e → e.activating = true →
        Settled ((s.modLine l ended).setEntry slot (some { e with probeDue := some (s.now + 10000) })) t) ∧
      (x.purpose = .recoveryProbe → Settled (s.modLine l ended) t) ∧
      (∀ w, x.purpose = .fullProbe → (s.line l).sweep = some w → w.kind = .full → w.cursor = x.address →
        ((s.line l).state ≠ .active ∨ (s.line l).run < 3 ∨ s.slotAt l x.address = none) →
        (x.address = 47 → FullSweepEnded s t l) ∧ (x.address < 47 → SweepParts s t fun _ => none)) ∧
      (∀ w, x.purpose = .fullProbe → s.slotAt l x.address = none → (s.line l).sweep = some w → w.kind = .full →
        w.cursor = x.address →
        (x.address < 47 → Settled (s.modLine l fun q => { ended q with
          sweep := some { w with cursor := x.address + 1, lastProbe := s.now } }) t) ∧
        (x.address = 47 → (t.line l).run = (s.line l).run ∧ (t.line l).charges = (s.line l).charges ∧
          ((s.line l).rosterDue = false → (t.line l).sweep = none) ∧ List.Forall₂ SlotSettled s.roster t.roster))

/-- The fourth failure in a row, NO_REPLY or BAD, makes the line FAULTED: no charge is left, every open job parks or is gone,
the sweep ends, the recovery timer runs for the sweep interval, and LINE_FAULT is posted (R78, R80). When it is a job's
exchange that failed, the other open jobs of the line are QUEUED with their next blocks kept (R54, R55), and the job itself
is failed with JOB_FAILED and removed, its LOADING entry PENDING or as resolution leaves it (R45, R58, R60). The line's part
of each outstanding SWEEP NOW is cut off, or COMPLETE when the probe of address 47 is what failed, with SWEEP_DONE to the
ordering port when no part is outstanding any more; a start-up full sweep has ended with it (R17, R165, R168, R177). -/
def Obligations.FourthFailureFaultsTheLine : Prop :=
  ∀ (s : State) (l : Line) (x : Exchange) (c : Instr) (st : Stats) (k : FailCause), Awaits s l x →
    x.limit ≤ x.retries → AttemptFails (s.line l).stats l x c st k → (s.line l).state = .active →
    3 ≤ (s.line l).run → CountsAgainst s l x →
    ∃ t, exec c s = .next t ∧ LineFaulted s t l ∧
      (∀ tag, tag ∈ (s.line l).openSet → (s.job tag).isSome = true → tag ∉ (t.line l).openSet) ∧
      (∀ own i tag j, x.purpose.tag = some own → s.job own = some i → NoRetiring s → OpenLegal s l →
        tag ∈ (s.line l).openSet → tag ≠ own → s.job tag = some j → j.slot ≠ i.slot →
        tag ∈ (t.line l).queue j.prio ∧ ∃ k, t.job tag = some k ∧
          k = { j with state := .queued, wait := none, pollDue := none, retriesUsed := 0, busyElapsed := 0, busyLimit := 0
                       parking := false, deferred := k.deferred }) ∧
      (∀ tag j, x.purpose.tag = some tag → s.job tag = some j →
        Posted s t (.jobFailed j.slot tag j.imageId k.jobCause j.next) ∧ JobEnded s t tag j ∧
        ∀ e, s.entry j.slot = some e → e.serial = j.serial → FellBack s t j.slot e false) ∧
      (let last := x.purpose = .fullProbe ∧ x.address = 47 ∧
         ∃ w, (s.line l).sweep = some w ∧ w.kind = .full ∧ w.cursor = 47
       (last → SweepParts s t (onLine l .complete)) ∧ (¬ last → SweepParts s t (onLine l .cut))) ∧
      (t.line l).settings = (s.line l).settings ∧
      LineSettled (s.line (otherLine l)) (t.line (otherLine l)) ∧ t.veh = s.veh ∧ t.time = s.time ∧ t.flash = s.flash ∧
      t.heldSerials = s.heldSerials

/-! ### Replies of the units -/

/-- A valid IDENT with the entry's own serial replaces the recorded fields, presence becomes PRESENT and missed sweeps 0;
UNIT_JOINED tells of an ABSENT unit's return and UNIT_CHANGED of another running version; a recovery probe's brings a FAULTED
line back (R9, R10, R16, R77, R82). A new unit, or another unit at an entry's address, is recorded in its slot with
UNIT_JOINED, the old one lost (R5, R6, R8); on a full roster it takes the slot of the ABSENT unit with the most missed
sweeps, or ROSTER_FULL is posted, once in a sweep (R6, R7). The charges that were pending go to the units they name, the
third making one HELD (R4, R79); the other clauses of the unit are stated with no charge pending. The IDENT of a full sweep's
address 47 ends the sweep: the line's part of each outstanding SWEEP NOW is COMPLETE, SWEEP_DONE is posted to the ordering
port and its slot emptied when no part is outstanding any more, and the start-up phase ends with STARTED when no start-up
sweep is left (R12, R17, R165, R168, R177); any other ends no part. -/
def Obligations.IdentRecordsTheUnit : Prop :=
  ∀ (s : State) (l : Line) (x : Exchange) (i : Ident), Awaits s l x → x.purpose.replyCode = 0x81 → 1 ≤ i.capacity →
    s.roster.length = 32 →
    (∀ w, x.purpose = .fullProbe → x.address = 47 → (s.line l).sweep = some w → w.kind = .full → w.cursor = 47 →
      ∃ t, exec (.identReceived l i) s = .next t ∧ FullSweepEnded s t l) ∧
    (x.purpose ≠ .fullProbe ∨ x.address < 47 →
      ∃ t, exec (.identReceived l i) s = .next t ∧ SweepParts s t fun _ => none) ∧
    ((s.line l).state = .active → x.purpose ≠ .recoveryProbe → ∃ t, exec (.identReceived l i) s = .next t ∧
      GoodReply s t l ∧
      ∀ k m f, s.slotAt l x.address = some k → m ≠ k → x.purpose ≠ .activationProbe m → s.entry m = some f →
        let n := ((s.line l).charges.filter fun c => c.slot == m && c.serial == f.serial).length
        (n = 0 ∨ f.state = .held → ∃ g, t.entry m = some g ∧ EntrySettled f g) ∧
        (f.state ≠ .held → f.failCount + n < 3 →
          ∃ g, t.entry m = some g ∧ EntrySettled { f with failCount := f.failCount + n } g) ∧
        (f.state ≠ .held → 0 < n → 3 ≤ f.failCount + n → f.serial ∈ t.heldSerials ∧
          (∀ p v, (t.port p).flags[8]? = some v → v.isSet = true) ∧
          ∃ g, t.entry m = some g ∧ g.state = .held ∧ g.failCount = 3 ∧ g.target = none)) ∧
    ((s.line l).charges = [] → (s.line l).state = .faulted → x.purpose = .recoveryProbe →
      ∃ t, exec (.identReceived l i) s = .next t ∧
      GoodReply s t l ∧ (t.line l).state = .active ∧ Posted s t (.lineRecovered l) ∧ (t.line l).recoveryTimer = none ∧
      (t.line l).sweep = some { kind := .full, cursor := 1, lastProbe := s.now, fullPosted := false }) ∧
    (∀ k e, (s.line l).charges = [] → s.slotAt l x.address = some k → s.entry k = some e → e.serial = i.serial →
      ∃ t f, exec (.identReceived l i) s = .next t ∧ t.entry k = some f ∧ f.serial = i.serial ∧ f.line = e.line ∧
        f.address = e.address ∧ f.classCode = i.classCode ∧ f.hwRev = i.hwRev ∧ f.capacity = i.capacity ∧
        f.bank0 = i.bank0 ∧ f.bank1 = i.bank1 ∧ f.running = i.running ∧ f.bootFault = i.bootFault ∧
        f.loading = i.loading ∧ f.presence = .present ∧ f.missed = 0 ∧
        (i.classCode = e.classCode → f.profile = e.profile ∧ f.estimate = e.estimate) ∧
        (i.classCode ≠ e.classCode → ProfileFor s.profiles i.classCode f.profile ∧
          f.estimate = (s.profile f.profile).seed) ∧
        (e.presence = .absent → Posted s t (.unitJoined k)) ∧ (e.presence ≠ .absent → NotPosted s t 1) ∧
        (e.activating = false → f.runningVersion ≠ e.runningVersion → Posted s t (.unitChanged k f.runningVersion)) ∧
        (e.activating = true ∨ f.runningVersion = e.runningVersion → NotPosted s t 3) ∧
        (e.activating = false → t.heldSerials = s.heldSerials ∧ f.failCount = e.failCount ∧ f.history = e.history ∧
          f.revert = e.revert ∧ f.prior = e.prior) ∧ Work s t) ∧
    (x.purpose = .fullProbe → s.slotAt l x.address = none → (s.line l).charges = [] →
      (∀ n, n < 32 → ∃ f, s.entry n = some f ∧ f.presence ≠ .absent) →
      ∃ t, exec (.identReceived l i) s = .next t ∧ List.Forall₂ SlotSettled s.roster t.roster ∧
        t.heldSerials = s.heldSerials ∧ NotPosted s t 1 ∧ NotPosted s t 2 ∧ Work s t ∧
        ((∀ w, (s.line l).sweep = some w → w.fullPosted = false) → Posted s t (.rosterFull l x.address)) ∧
        (∀ w, (s.line l).sweep = some w → w.fullPosted = true → NotPosted s t 4) ∧
        (∀ w, (s.line l).sweep = some w → w.kind = .full → w.cursor = x.address → x.address < 47 →
          (t.line l).sweep = some { w with cursor := x.address + 1, lastProbe := s.now, fullPosted := true })) ∧
    (∀ k, (s.line l).charges = [] → (x.purpose = .fullProbe ∧ s.slotAt l x.address = none ∧ k < 32 ∧ s.entry k = none ∧
          (∀ n, n < k → (s.entry n).isSome = true) ∨
        x.purpose = .fullProbe ∧ s.slotAt l x.address = none ∧ (∀ n, n < 32 → (s.entry n).isSome = true) ∧
          (∃ e, s.entry k = some e ∧ e.presence = .absent ∧ ∀ n f, s.entry n = some f → f.presence = .absent →
            f.missed < e.missed ∨ f.missed = e.missed ∧ k ≤ n) ∨
        ∃ e, s.slotAt l x.address = some k ∧ s.entry k = some e ∧ e.serial ≠ i.serial) →
      ∃ t f, exec (.identReceived l i) s = .next t ∧ t.entry k = some f ∧ f.serial = i.serial ∧ f.line = l ∧
        f.address = x.address ∧ f.classCode = i.classCode ∧ f.hwRev = i.hwRev ∧ f.capacity = i.capacity ∧
        f.bank0 = i.bank0 ∧ f.bank1 = i.bank1 ∧ f.running = i.running ∧ f.bootFault = i.bootFault ∧
        f.loading = i.loading ∧ f.presence = .present ∧ f.missed = 0 ∧
        ProfileFor s.profiles i.classCode f.profile ∧ f.estimate = (s.profile f.profile).seed ∧
        f.yardPin = pinFor s.yardPins i.serial ∧ f.servicePin = pinFor s.servicePins i.serial ∧
        f.history = [] ∧ f.prior = none ∧ f.bootTimer = none ∧ f.revert = .idle ∧
        (i.serial ∈ s.heldSerials → f.state = .held ∧ f.failCount = 3) ∧
        (i.serial ∉ s.heldSerials → f.state.resolvable = true ∧ f.failCount = 0) ∧
        Posted s t (.unitJoined k) ∧ (s.slotAt l x.address = some k → Posted s t (.unitLost k)) ∧
        (s.slotAt l x.address = none → NotPosted s t 2) ∧
        t.heldSerials = s.heldSerials ∧ Work s t)

/-- The IDENT of a unit in SWITCHING or FALLBACK is judged by the version it runs (R112 to R118). In SWITCHING, its target
without a boot fault is INSTALLED, the fail count cleared; its target with a boot fault goes to FALLBACK with a REVERT queued,
the timer restarted and a charge; any other version is REVERTED with a charge; the third charge makes the unit HELD (R4). In
FALLBACK, another version is REVERTED, its target without a boot fault under a timer in phase SECOND is INSTALLED, both
without a charge, and otherwise the activation goes on with a REVERT queued. INSTALLED and REVERTED are recorded at the head
of the history with the depot time (R18, R113), and their event is posted. Stated with no charge pending. -/
def Obligations.ActivationsAreJudged : Prop :=
  ∀ (s : State) (l : Line) (x : Exchange) (i : Ident) (k : Nat) (e : Entry) (g : Target), Awaits s l x →
    x.purpose.replyCode = 0x81 → x.purpose ≠ .recoveryProbe → (∀ n, x.purpose = .activationProbe n → n = k) →
    1 ≤ i.capacity → (s.line l).state = .active → (s.line l).charges = [] → s.roster.length = 32 →
    s.slotAt l x.address = some k → s.entry k = some e → e.serial = i.serial → e.target = some g →
    (e.state = .switching ∨ e.state = .fallback) →
    ∃ t f, exec (.identReceived l i) s = .next t ∧ t.entry k = some f ∧ GoodReply s t l ∧ Work s t ∧
      (∀ m h, m ≠ k → s.entry m = some h → ∃ h', t.entry m = some h' ∧ EntrySettled h h') ∧
      let runs := (match i.running with
        | .b0 => i.bank0
        | .b1 => i.bank1).version
      let b : Entry := { e with
        classCode := i.classCode, hwRev := i.hwRev, capacity := i.capacity, bank0 := i.bank0, bank1 := i.bank1
        running := i.running, bootFault := i.bootFault, loading := i.loading, presence := .present, missed := 0
        profile := f.profile, estimate := f.estimate, refused := if i.capacity = e.capacity then e.refused else none }
      let log (o : InstallOutcome) : List HistoryRecord :=
        (({ version := g.version, time := s.time.depotTime, outcome := o } : HistoryRecord) :: e.history).take 4
      let ended (o : InstallOutcome) (n : Nat) : Entry := { b with
        state := .inStep, failCount := n, history := log o, bootTimer := none, probeDue := none, revert := .idle
        owed := false }
      let held (h : List HistoryRecord) (r : RevertProgress) : Entry := { b with
        state := .held, failCount := 3, target := none, note := .noNote, history := h, bootTimer := none
        probeDue := none, revert := r, owed := false }
      let free := t.heldSerials = s.heldSerials ∧ NotPosted s t 8
      let joined := e.serial ∈ t.heldSerials ∧ Posted s t (.unitHeld k)
      let goesOn := f.probeDue =
        (if x.purpose = .activationProbe k then some (s.now + 10000) else e.probeDue) ∧ NotPosted s t 6 ∧ NotPosted s t 7
      let installed := Posted s t (.installed k g.version) ∧ NotPosted s t 7 ∧ free
      let reverted := Posted s t (.reverted k g.version runs) ∧ NotPosted s t 6
      (e.state = .switching → runs = some g.version → i.bootFault = false →
        EntrySettled (ended .installed 0) f ∧ installed) ∧
      (e.state = .switching → runs = some g.version → i.bootFault = true →
        (e.failCount < 2 → EntrySettled { b with
          state := .fallback, revert := .queued, failCount := e.failCount + 1, probeDue := f.probeDue
          bootTimer := some { seconds := (s.profile f.profile).boot, phase := .first
                              expired := e.bootTimer.any fun b => b.seconds == 0 || b.expired } } f ∧ goesOn ∧ free) ∧
        (2 ≤ e.failCount → EntrySettled (held e.history .queued) f ∧ joined ∧ NotPosted s t 6 ∧ NotPosted s t 7)) ∧
      (e.state = .switching → runs ≠ some g.version → reverted ∧
        (e.failCount < 2 → EntrySettled (ended .reverted (e.failCount + 1)) f ∧ free) ∧
        (2 ≤ e.failCount →
          EntrySettled (held (log .reverted) (if e.revert = .queued then .queued else .idle)) f ∧ joined)) ∧
      (e.state = .fallback → runs ≠ some g.version →
        EntrySettled (ended .reverted e.failCount) f ∧ reverted ∧ free) ∧
      (e.state = .fallback → runs = some g.version → i.bootFault = false →
        (∃ w, e.bootTimer = some w ∧ w.phase = .second) → EntrySettled (ended .installed e.failCount) f ∧ installed) ∧
      (e.state = .fallback → runs = some g.version →
        (i.bootFault = true ∨ ∀ w, e.bootTimer = some w → w.phase ≠ .second) →
        EntrySettled { b with revert := if e.revert = .idle then .queued else e.revert, probeDue := f.probeDue } f ∧
          goesOn ∧ free)

/-- The FILL that answers a job's LOAD (R48): accepted, the next block takes the fill count and the job waits while the unit
is busy, or is READY; a RESUME refused, or past the image's end, is followed by LOAD FRESH at once; a refusal that leaves no
way on is a unit fault, which removes the job, its LOADING entry PENDING or as resolution leaves it, resolved when the fault
is CAPACITY (R38, R58, R61). A job told to park parks instead of going on (R56; stated with the window CLOSED). Stated with
no charge pending. -/
def Obligations.FillAnswersTheLoad : Prop :=
  ∀ (s : State) (l : Line) (x : Exchange) (tag : Nat) (f : Fill) (j : Job) (e : Entry) (img : Image),
    Awaits s l x → x.purpose = .load tag f.mode → JobStands s tag j e img → (s.line l).state = .active →
    (s.line l).charges = [] → NoRetiring s → Unlisted s tag → 1 ≤ e.estimate →
    ∃ t, exec (.fillReceived l f) s = .next t ∧ GoodReply s t l ∧ Work s t ∧
      (j.parking = true → WindowShut s → f.refusal = .accepted → (f.mode = .fresh → f.fill = 0) →
        f.fill ≤ img.length →
        ParkedAt s t tag j e f.fill ∧ List.Forall₂ SlotSettled s.roster t.roster ∧ t.heldSerials = s.heldSerials) ∧
      (j.parking = true → WindowShut s → f.mode = .resume →
        (f.refusal = .refused ∨ f.refusal = .accepted ∧ img.length < f.fill) →
        ParkedAt s t tag j e j.next ∧ List.Forall₂ SlotSettled s.roster t.roster) ∧
      (j.parking = false → f.refusal = .accepted → (f.mode = .fresh → f.fill = 0) → f.fill ≤ img.length →
        (f.busy = true → t.job tag = some
          { j with next := f.fill, state := .released, busyElapsed := 0
                   wait := some (if f.mode = .fresh then .erase else .settle)
                   pollDue := some (s.now + if f.mode = .fresh then 5000 else e.estimate)
                   busyLimit := if f.mode = .fresh then 2 * (s.profile e.profile).erase * 10000
                     else max 1000 (16 * e.estimate) }) ∧
        (f.busy = false → ∃ k, t.job tag = some k ∧ ReadyOrServed t l tag k ∧
          k = { j with next := f.fill, state := k.state, wait := none, pollDue := none, busyElapsed := 0, busyLimit := 0
                       retriesUsed := k.retriesUsed }) ∧
        List.Forall₂ SlotSettled s.roster t.roster ∧ t.heldSerials = s.heldSerials) ∧
      (j.parking = false → f.mode = .resume → (f.refusal = .refused ∨ f.refusal = .accepted ∧ img.length < f.fill) →
        (∃ y, (t.line l).exchange = some y ∧ y.purpose = .load tag .fresh ∧ y.address = e.address ∧ y.retries = 0 ∧
          y.limit = (if j.noRetry then 0 else (s.line l).settings.retry)) ∧
        (OnlyOn s l tag → t.job tag = some { j with retriesUsed := 0 }) ∧
        List.Forall₂ SlotSettled s.roster t.roster) ∧
      (∀ k e', e.state ≠ .held →
        (f.refusal = .capacity ∧ k = .capacity ∧ e' = { e with refused := some j.imageId } ∨
          f.refusal = .refused ∧ f.mode = .fresh ∧ k = .refused ∧ e' = e ∨
          f.refusal = .accepted ∧ f.mode = .fresh ∧ f.fill ≠ 0 ∧ k = .sequence ∧ e' = e) →
        UnitFaulted s t tag j e' k (k == .capacity))

/-- The TAKEN that answers a burst or a CHECK (R49, R51, R68, R70): the whole burst taken moves the next block on and counts
the blocks delivered; a short one spends a retry and reads the burst that follows anew; a fill count beyond the burst, or one
that is not the image's length after CHECK, is a SEQUENCE fault; a CHECK taken makes the job VERIFYING. A short TAKEN with no
retry left fails the exchange as BAD (R60, R78), which as the fourth failure in a row makes the line FAULTED and cuts off its
part of a SWEEP NOW (R17, R80); a job told to park parks instead of going on (R56; stated with the window CLOSED). That
JOB_FAILED then carries the short TAKEN's own fill count, and that a short TAKEN of a job that parks counts as a success, are
the model's reading (log entry 28). A failure and a unit fault remove the job, its LOADING entry PENDING or as resolution
leaves it (R45, R58, R60, R61). Stated with no charge pending; the due times are the model's clock (log entry 1). -/
def Obligations.TakenAdvancesItsJob : Prop :=
  ∀ (s : State) (l : Line) (x : Exchange) (tag : Nat) (f : Taken) (j : Job) (e : Entry) (img : Image),
    Awaits s l x → JobStands s tag j e img → (s.line l).state = .active → (s.line l).charges = [] → NoRetiring s →
    Unlisted s tag → 1 ≤ e.estimate →
    (∀ first count, x.purpose = .burst tag first count → f.answered = .block →
      (f.fill = first + count → ∃ t, exec (.takenReceived l f) s = .next t ∧ Work s t ∧ ReplyTaken t l ∧
        (t.line l).run = 0 ∧ (t.line l).stats = { (s.line l).stats with
          goodReplies := min 65535 ((s.line l).stats.goodReplies + 1)
          blocksDelivered := min 65535 ((s.line l).stats.blocksDelivered + count)
          framesSent := (t.line l).stats.framesSent } ∧
        (j.parking = true → WindowShut s → ParkedAt s t tag j e f.fill) ∧
        (j.parking = false → f.busy = true → t.job tag = some
          { j with next := f.fill, retriesUsed := 0, state := .released, wait := some .burst, busyElapsed := 0
                   pollDue := some (s.now + e.estimate), busyLimit := max 1000 (16 * e.estimate) }) ∧
        (j.parking = false → f.busy = false → ∃ k, t.job tag = some k ∧ ReadyOrServed t l tag k ∧
          k = { j with next := f.fill, state := k.state, wait := none, pollDue := none, busyElapsed := 0, busyLimit := 0
                       retriesUsed := 0 }) ∧
        List.Forall₂ SlotSettled s.roster t.roster) ∧
      (f.fill < first + count → x.retries < x.limit → j.parking = true → WindowShut s →
        ∃ t, exec (.takenReceived l f) s = .next t ∧ Work s t ∧ GoodReply s t l ∧ ParkedAt s t tag j e f.fill ∧
          List.Forall₂ SlotSettled s.roster t.roster) ∧
      (f.fill < first + count → x.limit ≤ x.retries → (s.line l).run < 3 →
        ∃ t, exec (.takenReceived l f) s = .next t ∧ Work s t ∧ ReplyTaken t l ∧
          (t.line l).run = (s.line l).run + 1 ∧ (t.line l).charges = [{ slot := j.slot, serial := j.serial }] ∧
          Posted s t (.jobFailed j.slot tag j.imageId .bad f.fill) ∧ JobEnded s t tag j ∧
          FellBack s t j.slot e false ∧ List.Forall₂ SlotSettled s.roster t.roster) ∧
      (f.fill < first + count → x.limit ≤ x.retries → 3 ≤ (s.line l).run →
        ∃ t, exec (.takenReceived l f) s = .next t ∧ LineFaulted s t l ∧ SweepParts s t (onLine l .cut) ∧
          Posted s t (.jobFailed j.slot tag j.imageId .bad f.fill) ∧ JobEnded s t tag j ∧ FellBack s t j.slot e false) ∧
      (f.fill < first + count → x.retries < x.limit → j.parking = false → OnlyOn s l tag →
        let n := min (s.profile e.profile).burst (img.length - f.fill)
        ∃ t, exec (.takenReceived l f) s = .next t ∧ Work s t ∧
        (t.line l).exchange = some { x with purpose := .burst tag f.fill n, retries := x.retries + 1, phase := .reading
                                            framesOut := false } ∧
        (t.line l).buffer = some { tag := tag, first := f.fill, count := n, complete := false, blocks := [] } ∧
        t.job tag = some { j with next := f.fill, retriesUsed := x.retries + 1 } ∧
        (t.line l).run = (s.line l).run ∧ List.Forall₂ SlotSettled s.roster t.roster) ∧
      (first + count < f.fill → e.state ≠ .held → ∃ t, exec (.takenReceived l f) s = .next t ∧ Work s t ∧
        GoodReply s t l ∧ UnitFaulted s t tag j e .sequence false)) ∧
    (x.purpose = .check tag → f.answered = .check →
      (f.fill = img.length → j.parking = true → WindowShut s → ∃ t, exec (.takenReceived l f) s = .next t ∧ Work s t ∧
        GoodReply s t l ∧ ParkedAt s t tag j e j.next ∧ List.Forall₂ SlotSettled s.roster t.roster) ∧
      (f.fill = img.length → j.parking = false → ∃ t k, exec (.takenReceived l f) s = .next t ∧ Work s t ∧ GoodReply s t l ∧
        t.job tag = some k ∧
        k = { j with state := .verifying, wait := none, busyElapsed := 0, retriesUsed := k.retriesUsed
                     busyLimit := 2 * (s.profile e.profile).verify * 10000
                     pollDue := some (s.now + if f.busy then 5000 else 0) } ∧
        List.Forall₂ SlotSettled s.roster t.roster) ∧
      (f.fill ≠ img.length → e.state ≠ .held → ∃ t, exec (.takenReceived l f) s = .next t ∧ Work s t ∧
        GoodReply s t l ∧ UnitFaulted s t tag j e .sequence false))

/-- The TAKEN that answers SWAP moves a STAGED entry to SWITCHING with its prior version, its boot timer in phase FIRST and
its first probe due in 1 s; one that answers REVERT is noted in FALLBACK, and the next probe is due in 1 s (R108, R110,
R111, R120). Stated with no charge pending; the due times are the model's clock (log entry 1). -/
def Obligations.TakenStartsTheActivation : Prop :=
  ∀ (s : State) (l : Line) (x : Exchange) (slot : Nat) (f : Taken) (e : Entry), Awaits s l x → s.entry slot = some e →
    (s.line l).state = .active → (s.line l).charges = [] →
    let good (q : LineEngine) : LineEngine := { q with
      exchange := none, buffer := none, run := 0
      stats := { q.stats with goodReplies := min 65535 (q.stats.goodReplies + 1) } }
    (x.purpose = .swap slot → f.answered = .swap → e.state = .staged → e.serial = x.serial →
      ∃ t, exec (.takenReceived l f) s = .next t ∧ ReplyTaken t l ∧
        Settled ((s.modLine l good).setEntry slot (some { e with
          state := .switching, prior := e.runningRecord.version, revert := .idle
          bootTimer := some { seconds := (s.profile e.profile).boot, phase := .first }
          probeDue := some (s.now + 10000) })) t) ∧
    (x.purpose = .swap slot → f.answered = .swap → (e.state ≠ .staged ∨ e.serial ≠ x.serial) →
      ∃ t, exec (.takenReceived l f) s = .next t ∧ Settled (s.modLine l good) t) ∧
    (x.purpose = .revert slot → f.answered = .revert → (e.state = .fallback ∨ e.state = .held) →
      ∃ t, exec (.takenReceived l f) s = .next t ∧ ReplyTaken t l ∧
        Settled ((s.modLine l good).setEntry slot (some { e with
          revert := if e.state = .fallback then .taken else .idle
          probeDue := if e.state = .fallback then some (s.now + 10000) else e.probeDue })) t)

/-- The STATE that answers a poll (R50 to R53, R73, R90): a RELEASED job's wait goes on with the next poll set, or ends READY
with its sample taken when it was a burst's; a VERIFYING job waits on, or passes: its entry's inactive bank holds the image,
it becomes STAGED and the job is gone. A unit still busy past its limit fails the exchange with BUSY_TIMEOUT, also when the
limit is 0 (R60, R72); as the fourth failure in a row it makes the line FAULTED (R78, R80), and a SWEEP NOW that waited for
the line has its part cut off, with SWEEP_DONE to the ordering port when no part is outstanding any more (R17, R168). A
fault, a fill count out of order, a failed or missing check result is a unit fault. Each of these three ends removes the job,
and after a failure or a fault the LOADING entry is PENDING or as resolution leaves it (R45, R58, R60, R61). A job told to
park parks instead of going on (R56; stated with the window CLOSED). Stated with no charge pending. -/
def Obligations.StateAnswersThePoll : Prop :=
  ∀ (s : State) (l : Line) (x : Exchange) (tag : Nat) (u : UnitReport) (j : Job) (e : Entry) (img : Image),
    Awaits s l x → x.purpose = .poll tag → JobStands s tag j e img → (s.line l).state = .active →
    (s.line l).charges = [] → NoRetiring s → Unlisted s tag →
    (u.busy = true → u.activity ≠ .idle) →
    let within := j.busyElapsed ≤ j.busyLimit ∧ 0 < j.busyLimit
    let timedOut (next : Nat) := ∃ t, exec (.stateReceived l u) s = .next t ∧
      (t.line l).run = (s.line l).run + 1 ∧ (t.line l).charges = [{ slot := j.slot, serial := j.serial }] ∧
      Posted s t (.jobFailed j.slot tag j.imageId .busyTimeout next) ∧ JobEnded s t tag j ∧ FellBack s t j.slot e false ∧
      ReplyTaken t l ∧
      List.Forall₂ SlotSettled s.roster t.roster ∧ Work s t
    let faulted (next : Nat) := ∃ t, exec (.stateReceived l u) s = .next t ∧ LineFaulted s t l ∧
      SweepParts s t (onLine l .cut) ∧ Posted s t (.jobFailed j.slot tag j.imageId .busyTimeout next) ∧
      JobEnded s t tag j ∧ FellBack s t j.slot e false
    (∀ w, j.state = .released → j.wait = some w → u.fault = .noFault → u.fill ≤ j.next → u.fill ≤ img.length →
      (u.busy = true → within → j.parking = true → WindowShut s → ∃ t, exec (.stateReceived l u) s = .next t ∧
        GoodReply s t l ∧ ParkedAt s t tag j e u.fill ∧ List.Forall₂ SlotSettled s.roster t.roster ∧ Work s t) ∧
      (u.busy = true → within → j.parking = false → ∃ t, exec (.stateReceived l u) s = .next t ∧ GoodReply s t l ∧
        t.job tag = some { j with next := u.fill, pollDue := some (s.now +
          if w = .erase then 5000 else max 10 (e.estimate / 4)) } ∧
        List.Forall₂ SlotSettled s.roster t.roster ∧ Work s t) ∧
      (u.busy = false → j.parking = true → WindowShut s → ∃ t, exec (.stateReceived l u) s = .next t ∧
        GoodReply s t l ∧ ParkedAt s t tag j e u.fill ∧
        (∃ f, t.entry j.slot = some f ∧ EntrySettled
          { e with estimate := if w = .burst then newEstimate e.estimate u.busyTime else e.estimate } f) ∧ Work s t) ∧
      (u.busy = false → j.parking = false → ∃ t k, exec (.stateReceived l u) s = .next t ∧ GoodReply s t l ∧
        t.job tag = some k ∧
        ReadyOrServed t l tag k ∧
        k = { j with next := u.fill, state := k.state, wait := none, pollDue := none, busyElapsed := 0, busyLimit := 0
                     retriesUsed := k.retriesUsed } ∧
        (∃ f, t.entry j.slot = some f ∧ EntrySettled
          { e with estimate := if w = .burst then newEstimate e.estimate u.busyTime else e.estimate } f) ∧ Work s t) ∧
      (u.busy = true → ¬ within → (s.line l).run < 3 → timedOut u.fill) ∧
      (u.busy = true → ¬ within → 3 ≤ (s.line l).run → faulted u.fill)) ∧
    (j.state = .verifying → u.fault = .noFault →
      (u.busy = true → within → j.parking = true → WindowShut s → ∃ t, exec (.stateReceived l u) s = .next t ∧
        GoodReply s t l ∧ ParkedAt s t tag j e j.next ∧ List.Forall₂ SlotSettled s.roster t.roster ∧ Work s t) ∧
      (u.busy = true → ¬ within → (s.line l).run < 3 → timedOut j.next) ∧
      (u.busy = true → ¬ within → 3 ≤ (s.line l).run → faulted j.next) ∧
      (u.busy = true → within → j.parking = false → ∃ t, exec (.stateReceived l u) s = .next t ∧ GoodReply s t l ∧
        t.job tag = some { j with pollDue := some (s.now + 5000) } ∧
        List.Forall₂ SlotSettled s.roster t.roster ∧ Work s t) ∧
      (u.busy = false → u.check = .pass → e.state = .loading → ∃ t f, exec (.stateReceived l u) s = .next t ∧
        GoodReply s t l ∧ t.entry j.slot = some f ∧ f.state = .staged ∧
        f.inactiveRecord = { version := some img.version, valid := true } ∧ f.runningRecord = e.runningRecord ∧
        f.running = e.running ∧ f.target = e.target ∧ f.failCount = e.failCount ∧ f.loading = e.loading ∧
        (∀ k, t.job tag = some k → k.slot ≠ j.slot) ∧ JobEnded s t tag j ∧ Posted s t (.staged j.slot) ∧ t.heldSerials = s.heldSerials ∧ Work s t)) ∧
    (∀ k e', e.state ≠ .held →
      ((j.state = .verifying ∨ j.state = .released ∧ j.wait.isSome = true) ∧ e' = e ∧
          (u.fault = .writeFault ∧ k = .writeFault ∨ u.fault = .sequence ∧ k = .sequence ∨
            u.fault = .capacity ∧ k = .capacity) ∨
        j.state = .released ∧ j.wait.isSome = true ∧ u.fault = .noFault ∧ (j.next < u.fill ∨ img.length < u.fill) ∧
          e' = e ∧ k = .sequence ∨
        j.state = .verifying ∧ u.fault = .noFault ∧ u.busy = false ∧
          (u.check = .fail ∧ k = .checkFail ∧ e' = { e with loading := none } ∨
            u.check = .noResult ∧ k = .sequence ∧ e' = e)) →
      ∃ t, exec (.stateReceived l u) s = .next t ∧ GoodReply s t l ∧ UnitFaulted s t tag j e' k false ∧ Work s t)

/-- A sample of the program time moves the estimate: up by an eighth of the difference rounded up, down by an eighth rounded
down, the result clamped into 1 to 20000 ticks (R91). -/
def Obligations.SamplesMoveTheEstimate : Prop :=
  ∀ e v : Nat,
    (e < v → ∃ n, 8 * n < v - e + 8 ∧ v - e ≤ 8 * n ∧ newEstimate e v = max 1 (min 20000 (e + n))) ∧
    (v < e → ∃ n, 8 * n ≤ e - v ∧ e - v < 8 * n + 8 ∧ newEstimate e v = max 1 (min 20000 (e - n))) ∧
    (v = e → newEstimate e v = max 1 (min 20000 e))

/-! ### Creating jobs, the arbiter's grants, and due times -/

/-- A job is created for the waiting unit in the lowest slot with the lowest free tag, at the tail of its class queue (R42,
R44), and no step leaves a unit waiting while a tag is free. An arbiter that is asked, with no activation work, overdue
sweep probe or due poll before it, grants the line by R75: in QUIET a SWAP to the eligible unit of the highest class, below
the swap limit (R106, R107); else the READY job of the highest class, by its next burst or its CHECK (R49, R51, R70); else,
below the open limit, the first job of the queues that the Time Budget admits (R43, R46, R47, R93 to R95, R101), those before
it deferred; else a sweep probe. Stated at a tick in YARD or QUIET, of the state once the tick is made (the model's clock,
log entry 1), when only this line's arbiter is left to choose. -/
def Obligations.JobsAreCreatedAndTheLineGranted : Prop :=
  (∀ (s : State) (tag i : Nat) (e : Entry) (g : Target), s.jobs.length = 24 → tag < 24 → s.job tag = none →
      (∀ n, n < tag → (s.job n).isSome = true) → i < 32 → Waits s i e g → (∀ n f h, n < i → ¬ Waits s n f h) →
      let t := s.createJob
      t.job tag = some { slot := i, serial := e.serial, imageId := g.imageId, prio := g.prio, noRetry := g.noRetry
                         state := .queued, next := 0, wait := none, deferred := false, everOpened := false
                         parking := false, retriesUsed := 0, pollDue := none, busyElapsed := 0, busyLimit := 0 } ∧
      (∀ n, n ≠ tag → t.job n = s.job n) ∧
      (t.line e.line).queue g.prio = (s.line e.line).queue g.prio ++ [tag] ∧
      (∀ n, n < 4 → n ≠ min g.prio 3 → (t.line e.line).queue n = (s.line e.line).queue n) ∧
      (∀ r, s.image g.imageId = some r → t.image g.imageId = some { r with jobCount := r.jobCount + 1 }) ∧
      (∀ n, n ≠ g.imageId → t.image n = s.image n) ∧
      t = { s with jobs := t.jobs, lineA := t.lineA, lineB := t.lineB, store := t.store } ∧
      t.line (otherLine e.line) = s.line (otherLine e.line)) ∧
  (∀ s t : State, ShapeLegal s → NoneWaits s → step s = .next t → NoneWaits t) ∧
  (∀ (s u : State) (l : Line), u = s.tick → Calm u → LineFree u l → (u.line l).wake = true →
      (u.line (otherLine l)).exchange.isSome = true → (u.line l).state = .active →
      (u.veh.mode = .yard ∨ u.veh.mode = .quiet) → u.activationSlot l = none → u.sweepOverdue l = false →
      u.duePoll l = none → ∃ t, exec .oneSecondTick s = .next t ∧ Settled u t ∧
      let x := (u.line l).settings
      let swaps := (u.roster.filter fun o => o.any fun e =>
        e.line == l && (e.state == .switching || e.state == .fallback)).length
      let noSwap := u.veh.mode = .yard ∨ x.swapLimit ≤ swaps ∨ ∀ k e g, k < 32 → ¬ MaySwap u l k e g
      let limit (j : Job) := if j.noRetry then 0 else x.retry
      let refused (n : Nat) := ∃ j e img, JobStands u n j e img ∧ NotAdmitted u j e img
      let deferredOnly (tags : List Nat) := ∀ n j, u.job n = some j →
        t.job n = some (if n ∈ tags then { j with deferred := true } else j)
      let swept := ((u.line l).sweep = none → (t.line l).exchange = none) ∧
        (∀ w, (u.line l).sweep = some w → w.kind = .full → Began u t l .fullProbe w.cursor x.retry) ∧
        (∀ w e, (u.line l).sweep = some w → w.kind = .roster → u.entry w.cursor = some e →
          Began u t l (.rosterProbe w.cursor) e.address x.retry)
      (∀ k e g, u.veh.mode = .quiet → swaps < x.swapLimit → k < 32 → MaySwap u l k e g →
        (∀ n f h, n ≠ k → n < 32 → MaySwap u l n f h → g.prio < h.prio ∨ g.prio = h.prio ∧ k < n) →
        Began u t l (.swap k) e.address x.retry ∧ t.jobs = u.jobs ∧ t.roster = u.roster ∧
          ∀ y, (t.line l).exchange = some y → y.expected = some g.version ∧ y.serial = e.serial) ∧
      (∀ pre tag post j e img, noSwap → (u.line l).ready = pre ++ tag :: post → JobStands u tag j e img →
        (∀ n, n ∈ pre → ∃ k, u.job n = some k ∧ j.prio < k.prio) →
        (∀ n, n ∈ post → ∃ k, u.job n = some k ∧ j.prio ≤ k.prio) →
        t.job tag = some { j with state := .sending, retriesUsed := 0 } ∧
        (t.line l).ready = (u.line l).ready.filter (· != tag) ∧ (t.line l).openSet = (u.line l).openSet ∧
        (j.next < img.length →
          let n := min (u.profile e.profile).burst (img.length - j.next)
          let r : LineRead := { tag := tag, imageId := j.imageId, first := j.next, count := n }
          (∃ y, (t.line l).exchange = some y ∧ y.purpose = .burst tag j.next n ∧ y.address = e.address ∧
            y.limit = limit j ∧ y.retries = 0 ∧ y.phase = .reading) ∧
          (t.line l).buffer = some { tag := tag, first := j.next, count := n, complete := false, blocks := [] } ∧
          (t.eng.read l = some r ∨ t.eng.op = some (.lineRead l r true))) ∧
        (img.length ≤ j.next → Began u t l (.check tag) e.address (limit j))) ∧
      (noSwap → (u.line l).ready = [] → x.openLimit ≤ (u.line l).openSet.length → swept ∧ deferredOnly []) ∧
      (noSwap → (u.line l).ready = [] → (u.line l).openSet.length < x.openLimit →
        ((∀ n, n ∈ (u.line l).queued → refused n) → swept ∧ deferredOnly (u.line l).queued) ∧
        (∀ pre tag post j e img, (u.line l).queued = pre ++ tag :: post → tag ∉ pre → (∀ n, n ∈ pre → refused n) →
          JobStands u tag j e img → Admitted u j e img →
          let fresh := j.next = 0 ∧ ∀ m, e.loading = some m → m.version ≠ img.version ∨ m.crc ≠ img.crc
          (fresh → Began u t l (.load tag .fresh) e.address (limit j)) ∧
          (¬ fresh → Began u t l (.load tag .resume) e.address (limit j)) ∧
          t.job tag = some { j with state := .starting, deferred := false, everOpened := true, retriesUsed := 0
                                    busyElapsed := 0 } ∧
          (∀ n k, n ≠ tag → u.job n = some k → t.job n = some (if n ∈ pre then { k with deferred := true } else k)) ∧
          (tag ∉ (u.line l).openSet → (t.line l).openSet = (u.line l).openSet ++ [tag] ∧
            (tag ∉ post → (t.line l).queued = pre ++ post)) ∧
          (j.everOpened = false → e.state = .pending → t.entry j.slot = some { e with state := .loading }) ∧
          (j.everOpened = true ∨ e.state ≠ .pending → t.roster = u.roster))))


/-- What falls due begins its exchange when the line may act and nothing comes before it (R72, R74, R75, R82, R111): a job's
poll, an entry's activation probe, a sweep's overdue probe, and a FAULTED line's recovery probe. It is stated of the state
once the due time has come (the model's clock, log entry 1), when only the arbiter is left to choose. The sweep interval
starts a roster sweep at the line's lowest occupied slot, its timer running again, or makes one due during a full sweep (R12). -/
def Obligations.DueTimesBeginTheirWork : Prop :=
  (∀ (s u : State) (l : Line) (d : Nat), u = s.advanceTo d → Calm u → LineFree u l → Asleep u (otherLine l) →
      let began (t : State) (p : Purpose) (address limit : Nat) := ∃ y, (t.line l).exchange = some y ∧
        y.purpose = p ∧ y.address = address ∧ y.limit = limit ∧ y.retries = 0 ∧ y.rate = (s.line l).settings.rate ∧
        y.timeout = (s.line l).settings.timeout ∧ (y.phase = .gap ∨ y.phase = .sending 0)
      let retry := (s.line l).settings.retry
      (∀ tag j e img, JobStands s tag j e img → e.line = l → (j.state = .released ∨ j.state = .verifying) →
        j.pollDue = some d → (s.line l).state = .active → (s.veh.mode = .yard ∨ s.veh.mode = .quiet) →
        u.activationSlot l = none → u.sweepOverdue l = false → u.duePoll l = some tag →
        ∃ t, exec (.pollDue tag) s = .next t ∧ began t (.poll tag) e.address (if j.noRetry then 0 else retry) ∧
          Settled u t) ∧
      (∀ k e, s.entry k = some e → e.line = l → e.activating = true → e.probeDue = some d → (s.line l).state = .active →
        (∀ n f, n < k → s.entry n = some f → f.line = l → f.revert ≠ .queued ∧ f.activating = false) → k < 32 →
        ∃ t, exec (.activationProbeDue k) s = .next t ∧ Settled u t ∧
          began t (if e.revert = .queued ∧ e.state = .fallback then .revert k else .activationProbe k) e.address retry) ∧
      (∀ w, (s.line l).sweep = some w → d = w.lastProbe + 2501 → (s.line l).state = .active →
        u.activationSlot l = none →
        ∃ t, exec (.sweepProbeOverdue l) s = .next t ∧ Settled u t ∧
          (w.kind = .full → began t .fullProbe w.cursor retry) ∧
          (∀ e, w.kind = .roster → s.entry w.cursor = some e → began t (.rosterProbe w.cursor) e.address retry)) ∧
      ((s.line l).state = .faulted → (s.line l).recoveryTimer = some d → ∃ t a, exec (.recoveryTimerExpiry l) s = .next t ∧
        began t .recoveryProbe a retry ∧ (t.line l).recoveryDue = false ∧
        (t.line l).recoveryTimer = some (u.now + 10000 * [2, 5, 10, 20].getD (s.line l).settings.interval 20) ∧
        let stands (n : Nat) := n ≤ 47 ∧ ∃ k e, s.entry k = some e ∧ e.line = l ∧ e.presence ≠ .absent ∧ e.address = n
        ((∃ n, stands n) → stands a ∧ ∀ n, stands n → a ≤ n) ∧ ((∀ n, ¬ stands n) → a = 1))) ∧
  (∀ (s : State) (l : Line) (d : Nat), (s.line l).sweepTimer = some d →
      ∃ t, exec (.sweepIntervalExpiry l) s = .next t ∧ (t.line l).settings = (s.line l).settings ∧
        (t.line l).state = (s.line l).state ∧ (t.line l).run = (s.line l).run ∧ t.now = max s.now d ∧
        List.Forall₂ SlotSettled s.roster t.roster ∧ t.flash = s.flash ∧ t.time = s.time ∧
        t.heldSerials = s.heldSerials ∧
        (∀ k e, (s.line l).sweep = none → s.entry k = some e → e.line = l → k < 32 →
          (∀ n f, n < k → s.entry n = some f → f.line ≠ l) →
          (t.line l).sweep = some { kind := .roster, cursor := k, lastProbe := max s.now d, fullPosted := false } ∧
          (t.line l).sweepTimer = some (max s.now d + 10000 * [2, 5, 10, 20].getD (s.line l).settings.interval 20)) ∧
        ((s.line l).sweep = none → (∀ n f, s.entry n = some f → f.line ≠ l) → (t.line l).sweep = none) ∧
        (∀ w, (s.line l).sweep = some w → w.kind = .full →
          (t.line l).sweep = some w ∧ (t.line l).rosterDue = true ∧ (t.line l).sweepTimer = none))

/-- A boot timer that has run down, or whose expiry came with an IDENT that restarted it: in SWITCHING the unit is charged 1 and goes to FALLBACK with the timer in phase SECOND,
or is LOST and HELD at the third charge; in FALLBACK it is LOST and HELD. LOST is recorded at the head of the history with
the depot time (R4, R18, R110, R117, R119). -/
def Obligations.BootTimersRunOut : Prop :=
  ∀ (s : State) (k : Nat) (e : Entry) (b : BootTimer), s.entry k = some e → e.bootTimer = some b →
    (b.seconds = 0 ∨ b.expired = true) →
    let lost (c : Instr) := ∃ t f, exec c s = .next t ∧ t.entry k = some f ∧
      f.history = (match e.target with
        | some g => (({ version := g.version, time := s.time.depotTime, outcome := .lost } : HistoryRecord) ::
            e.history).take 4
        | none => e.history) ∧
      EntrySettled { e with
        state := .held, failCount := 3, target := none, note := .noNote, bootTimer := none, probeDue := none, owed := false
        revert := if e.revert = .queued then .queued else .idle, history := f.history } f ∧
      e.serial ∈ t.heldSerials ∧ Posted s t (.unitHeld k) ∧ Work s t
    (e.state = .switching → e.failCount < 2 → ∃ t, exec (.bootTimerFirstExpiry k) s = .next t ∧
      Settled (s.setEntry k (some { e with
        state := .fallback, failCount := e.failCount + 1
        bootTimer := some { seconds := (s.profile e.profile).boot, phase := .second } })) t) ∧
    (e.state = .switching → 2 ≤ e.failCount → lost (.bootTimerFirstExpiry k)) ∧
    (e.state = .fallback → lost (.bootTimerFallbackExpiry k))

/-! ### What the flash reports -/

/-- A line read that its burst still wants fills the line buffer with the blocks' bytes as the flash holds them, and the
burst's first frame is sent or waits for the gap. One whose data is discarded, or that no exchange waits for, is dropped: it
leaves both lines, with their buffers, as they were (R70, R71, R123, R142, R149; stated when nothing else is left to settle). -/
def Obligations.LineReadsFillTheBuffer : Prop :=
  ∀ (s : State) (l : Line) (r : LineRead), s.opInside = true →
    (s.eng.op = some (.lineRead l r false) → ∃ t, exec .lineReadDone s = .next t ∧ Settled s t) ∧
    (∀ live, s.eng.op = some (.lineRead l r live) →
      (live = false ∨ ∀ x, (s.line l).exchange = some x → x.phase ≠ .reading) → Calm s → (∀ m, Asleep s m) →
      ∃ t, exec .lineReadDone s = .next t ∧ Settled s t ∧ t.lineA = s.lineA ∧ t.lineB = s.lineB ∧ t.jobs = s.jobs) ∧
    (∀ x img, s.eng.op = some (.lineRead l r true) → (s.line l).exchange = some x → x.phase = .reading →
      s.image r.imageId = some img → NoRetiring s → ∃ t b y, exec .lineReadDone s = .next t ∧ Settled s t ∧
        (t.line l).buffer = some b ∧ b.tag = r.tag ∧ b.first = r.first ∧ b.count = r.count ∧ b.complete = true ∧
        b.blocks.length = r.count ∧
        (∀ i p, i < r.count → img.extents[(r.first + i) / 15]? = some p → ∃ bs, b.blocks[i]? = some bs ∧
          bs.length = 256 ∧ ∀ k, k < 256 →
            bs[k]? = some (flashRead s.flash (p * 4096 + ((r.first + i) % 15 + 1) * 256 + k))) ∧
        (t.line l).exchange = some y ∧ y = { x with phase := y.phase, framesOut := y.framesOut } ∧
        ((s.line l).quiet = true → y.phase = .sending 0 ∧ y.framesOut = true ∧
          (t.line l).stats.framesSent = min 65535 ((s.line l).stats.framesSent + 1)) ∧
        ((s.line l).quiet = false → y.phase = .gap ∧ (t.line l).stats = (s.line l).stats))

/-- A good program of an intake image leaves its bytes in the flash; a block's makes the block RECEIVED, counts it and answers
its WRITE BLOCK (the reply of an order that a later one replaced stays, R161), and an identity program's marks its extent's tag WRITTEN (R129). A failed one damages the image: its failed
extent becomes BAD and its others DIRTY, its waiting programs are withdrawn, its waiting WRITE BLOCKs are answered STATE, and
STORE_FAULT is posted; the rest of the flash stands (R124, R130, R148). That a good program leaves exactly its bytes, and a
failed one free contents, are log entries 5 and 4. -/
def Obligations.IntakeProgramsLandOrDamage : Prop :=
  (∀ (s : State) (p : Program) (r : Image), s.eng.op = some (.program p) → p.live = true → s.image p.image = some r →
      r.state = .receiving → NoRetiring s → s.opInside = true → flashWf s.flash = true →
      (∀ b tk, p.kind = .block b tk → ∃ t, exec (.pageProgramDone true) s = .next t ∧ FlashTook s t p.addr p.bytes ∧
        t.image p.image = some { r with blocks := r.blocks.set b .received, received := r.received + 1 } ∧
        ((s.port tk.port).seq = tk.seq → (t.port tk.port).reply = some ⟨.done, .count (r.received + 1)⟩) ∧
        ((s.port tk.port).seq ≠ tk.seq → (t.port tk.port).reply = (s.port tk.port).reply) ∧
        (∀ o, o ≠ tk.port → (t.port o).reply = (s.port o).reply) ∧
        t.store.free = s.store.free ∧ t.store.dirty = s.store.dirty ∧ t.store.bad = s.store.bad ∧
        List.Forall₂ SlotSettled s.roster t.roster ∧ Work { s with flash := t.flash } t) ∧
      (p.kind = .identity → ∃ t, exec (.tagProgramDone true) s = .next t ∧ FlashTook s t p.addr p.bytes ∧
        t.image p.image = some { r with tags := r.tags.set p.position .written } ∧
        t.store.free = s.store.free ∧ t.store.dirty = s.store.dirty ∧ t.store.bad = s.store.bad ∧
        List.Forall₂ SlotSettled s.roster t.roster ∧ Work { s with flash := t.flash } t)) ∧
  (∀ (s : State) (p : Program) (r : Image) (x : Nat), s.eng.op = some (.program p) → p.live = true →
      s.image p.image = some r → r.state = .receiving → NoRetiring s → s.opInside = true → flashWf s.flash = true →
      r.extents[p.position]? = some x →
      ∀ c, (p.kind = .identity ∧ c = .tagProgramDone false ∨
          (∃ b tk, p.kind = .block b tk) ∧ c = .pageProgramDone false) →
        ∃ t, exec c s = .next t ∧ FlashSpared s t (.program p) ∧
          t.image p.image = some { r with state := .damaged, intake := none, markPending := false } ∧
          t.store.bad = s.store.bad ++ [x] ∧ t.store.dirty = s.store.dirty ++ r.extents.filter (· != x) ∧
          t.store.free = s.store.free ∧ (∀ q, q ∈ t.eng.programs → q.image ≠ p.image) ∧
          Posted s t (.storeFault p.extent .program (some p.image)) ∧
          (∀ q b tk, (q = p ∨ q ∈ s.eng.programs ∧ q.live = true ∧ q.image = p.image) → q.kind = .block b tk →
            (s.port tk.port).seq = tk.seq → (t.port tk.port).reply = some ⟨.state, .empty⟩) ∧
          (∀ o, (∀ q b tk, (q = p ∨ q ∈ s.eng.programs ∧ q.live = true ∧ q.image = p.image) → q.kind = .block b tk →
            tk.port = o → (s.port o).seq ≠ tk.seq) → (t.port o).reply = (s.port o).reply) ∧
          List.Forall₂ SlotSettled s.roster t.roster ∧ t.heldSerials = s.heldSerials)

/-- The close check folds each block read into its CRC-32 and asks for the next; after the last, a match asks for the close
mark, with the image's CRC-32, class, hardware range and their CRC-16 (Table 12.8), and a mismatch damages the image with CLOSE_FAILED and the order's end (R133, R134). -/
def Obligations.CloseChecksRunToTheirEnd : Prop :=
  ∀ (s : State) (c : CheckRead) (r : Image) (x : Nat), s.eng.op = some (.checkRead c true) →
    s.image c.imageId = some r → r.state = .checking → r.markPending = false → NoRetiring s → s.opInside = true →
    r.extents[c.block / 15]? = some x →
    let crc := crc32Fold r.checkCrc (flashReadRange s.flash (x * 4096 + (c.block % 15 + 1) * 256) 256)
    ∃ t, exec .closeCheckReadDone s = .next t ∧ t.flash = s.flash ∧ t.store.free = s.store.free ∧
      List.Forall₂ SlotSettled s.roster t.roster ∧ Work s t ∧
      (c.block + 1 < r.length →
        t.image c.imageId = some { r with checkNext := c.block + 1, checkCrc := crc } ∧ t.store.dirty = s.store.dirty ∧
        (s.halted = false → (∀ q, q ∈ s.eng.checks → q.imageId ≠ c.imageId) →
          ({ imageId := c.imageId, block := c.block + 1 } : CheckRead) ∈ t.eng.checks ∨
            t.eng.op = some (.checkRead { imageId := c.imageId, block := c.block + 1 } true))) ∧
      (∀ y, r.length ≤ c.block + 1 → crc ^^^ 0xFFFFFFFF#32 = r.crc → r.extents[0]? = some y →
        t.image c.imageId = some { r with checkNext := c.block + 1, checkCrc := crc, markPending := true } ∧
        t.store.dirty = s.store.dirty ∧
        ∃ p, ProgramAsked t p ∧ p.kind = .closeMark ∧ p.image = c.imageId ∧ p.addr = y * 4096 + 64 ∧ p.extent = y ∧
          p.live = true ∧ p.bytes.length = 9 ∧ num32 p.bytes 0 = r.crc.toNat ∧
          (r.cls < 256 → num8 p.bytes 4 = r.cls) ∧ (r.hwMin < 256 → num8 p.bytes 5 = r.hwMin) ∧
          (r.hwMax < 256 → num8 p.bytes 6 = r.hwMax) ∧ num16 p.bytes 7 = (crc16 (p.bytes.take 7)).toNat) ∧
      (r.length ≤ c.block + 1 → crc ^^^ 0xFFFFFFFF#32 ≠ r.crc →
        t.image c.imageId = some { r with checkNext := c.block + 1, checkCrc := crc, state := .damaged, intake := none } ∧
        t.store.dirty = s.store.dirty ++ r.extents ∧
        Posted s t (.closeFailed c.imageId (.mismatch (crc ^^^ 0xFFFFFFFF#32))) ∧
        ∀ q, (t.port q).slot ≠ some (.closeImage c.imageId))

/-- The close mark written makes the image STORED with CLOSE_DONE and the order's end; its failure damages the image, its first
extent BAD, with CLOSE_FAILED and STORE_FAULT (R134). Of an image dropped while that mark was pending, the close mark written
is followed by the drop mark, with no CLOSE_DONE; the record is freed when the last mark ends, with CLOSE_FAILED DROPPED, the
order's end and the DROP IMAGEs that wait DONE (R135; STORE_FAULT for a failed close mark by log entry 19). The drop mark of a
RETIRING record, when it ends, clears the mark's flag and answers the DROP IMAGEs that wait: the record is freed with its extents when no job holds it, and
stays RETIRING otherwise; a failed mark is noted, posts STORE_FAULT, and its extent becomes BAD (R124, R136, R137; the flash's
contents by log entries 4 and 5). -/
def Obligations.MarksDecideTheImage : Prop :=
  (∀ (s : State) (p : Program) (r : Image), s.eng.op = some (.program p) → p.kind = .closeMark → p.live = true →
      s.image p.image = some r → r.state = .checking → r.dropped = false → NoRetiring s → s.opInside = true →
      flashWf s.flash = true →
      (∃ t n, exec (.closeMarkProgramDone true) s = .next t ∧ FlashTook s t p.addr p.bytes ∧
        t.image p.image = some { r with state := .stored, intake := none, markPending := false, jobCount := n } ∧
        Posted s t (.closeDone p.image) ∧ (∀ q, (t.port q).slot ≠ some (.closeImage p.image)) ∧
        t.store.free = s.store.free ∧ t.store.dirty = s.store.dirty ∧ t.store.bad = s.store.bad ∧
        List.Forall₂ SlotSettled s.roster t.roster ∧ Work { s with flash := t.flash } t) ∧
      (∀ x, r.extents[0]? = some x → ∃ t, exec (.closeMarkProgramDone false) s = .next t ∧
        FlashSpared s t (.program p) ∧
        t.image p.image = some { r with state := .damaged, intake := none, markPending := false, markFailed := true } ∧
        t.store.bad = s.store.bad ++ [x] ∧ t.store.dirty = s.store.dirty ++ r.extents.filter (· != x) ∧
        t.store.free = s.store.free ∧ Posted s t (.closeFailed p.image .markFailed) ∧
        Posted s t (.storeFault p.extent .program (some p.image)) ∧
        (∀ q, (t.port q).slot ≠ some (.closeImage p.image)) ∧ List.Forall₂ SlotSettled s.roster t.roster)) ∧
  (∀ (s : State) (p : Program) (r : Image) (ok : Bool), s.eng.op = some (.program p) → p.kind = .dropMark →
      p.live = true → s.image p.image = some r → r.state = .retiring → r.markFailed = false → s.opInside = true →
      flashWf s.flash = true → ∃ t, exec (.dropMarkProgramDone ok) s = .next t ∧
        (ok = true → FlashTook s t p.addr p.bytes ∧ NotPosted s t 17) ∧
        (ok = false → FlashSpared s t (.program p) ∧ Posted s t (.storeFault p.extent .program (some p.image))) ∧
        (∀ k, k ∈ r.droppers → (s.port k.port).seq = k.seq → (t.port k.port).reply = some ⟨.done, .empty⟩) ∧
        ((∀ q, q ∈ s.store.images → q.state = .retiring → q = r) →
          (r.jobCount = 0 → t.image p.image = none ∧
            (ok = true → t.store.dirty = s.store.dirty ++ r.extents ∧ t.store.bad = s.store.bad) ∧
            (∀ x, ok = false → r.extents[0]? = some x → t.store.bad = s.store.bad ++ [x] ∧
              t.store.dirty = s.store.dirty ++ r.extents.filter (· != x))) ∧
          (r.jobCount ≠ 0 → t.image p.image =
            some { r with markPending := false, markFailed := !ok, droppers := [] } ∧
            t.store.dirty = s.store.dirty ∧ t.store.bad = s.store.bad)) ∧
        List.Forall₂ SlotSettled s.roster t.roster ∧ t.store.free = s.store.free) ∧
  (∀ (s : State) (p : Program) (r : Image) (x : Nat), s.eng.op = some (.program p) → p.live = true →
      s.image p.image = some r → r.state = .checking → r.dropped = true → r.markPending = true → r.extents[0]? = some x →
      NoRetiring s → s.opInside = true → flashWf s.flash = true →
      let freed (t : State) (ok : Bool) := t.image p.image = none ∧ Posted s t (.closeFailed p.image .dropped) ∧
        NotPosted s t 14 ∧ (∀ q, (t.port q).slot ≠ some (.closeImage p.image)) ∧
        (∀ k, k ∈ r.droppers → (s.port k.port).seq = k.seq → (t.port k.port).reply = some ⟨.done, .empty⟩) ∧
        t.store.free = s.store.free ∧
        (ok = true → FlashTook s t p.addr p.bytes ∧ NotPosted s t 17 ∧ t.store.bad = s.store.bad ∧
          t.store.dirty = s.store.dirty ++ r.extents) ∧
        (ok = false → FlashSpared s t (.program p) ∧ Posted s t (.storeFault p.extent .program (some p.image)) ∧
          t.store.bad = s.store.bad ++ [x] ∧ t.store.dirty = s.store.dirty ++ r.extents.filter (· != x)) ∧
        List.Forall₂ SlotSettled s.roster t.roster
      (p.kind = .closeMark →
        (∃ t w, exec (.closeMarkProgramDone true) s = .next t ∧ FlashTook s t p.addr p.bytes ∧ t.image p.image = some r ∧
          ProgramAsked t w ∧ w.kind = .dropMark ∧ w.image = p.image ∧ w.extent = x ∧ w.addr = x * 4096 + 128 ∧
          w.bytes = [0x00#8, 0x00#8] ∧ w.live = true ∧ NotPosted s t 14 ∧ NotPosted s t 15 ∧
          t.store.free = s.store.free ∧ t.store.dirty = s.store.dirty ∧ t.store.bad = s.store.bad ∧
          List.Forall₂ SlotSettled s.roster t.roster) ∧
        ∃ t, exec (.closeMarkProgramDone false) s = .next t ∧ freed t false) ∧
      (p.kind = .dropMark → ∀ ok, ∃ t, exec (.dropMarkProgramDone ok) s = .next t ∧ freed t ok))

/-- A background erase that ends good leaves its extent erased and FREE at the tail of the free list; failed, BAD with
STORE_FAULT. An operation that outlasts its limit is FAILED: the recovery hold stands, the engine is empty, and all but the
engine is as its own failed report leaves it (R130, R134, R137, R175; the settings operations stated when nothing else is left
to settle). A suspended erase ends ABANDONED with it: a background one's extent keeps its place at the head of the dirty list,
and a settings one fails its save. What is not an erase or a program has no limit (R124, R138, R143, R148; the flash's contents
by log entries 4, 5 and 33). -/
def Obligations.ErasesAndLimitsEndTheirOperation : Prop :=
  ∀ (s : State) (x : Nat), s.opInside = true → flashWf s.flash = true →
    (s.eng.op = some (.erase x) → s.retired = none → ∃ t, exec (.backgroundEraseDone true) s = .next t ∧
      FlashErased s t (x * 4096) 4096 ∧ t.store.free = s.store.free ++ [x] ∧
      t.store.dirty = s.store.dirty.filter (· != x) ∧ t.store.bad = s.store.bad ∧
      Settled { s with flash := t.flash, store := { s.store with free := t.store.free, dirty := t.store.dirty } } t) ∧
    (∀ c, s.eng.op = some (.erase x) → s.retired = none → (c = .backgroundEraseDone false ∨ c = .flashOperationLimit) →
      s.eng.suspended = none → ∃ t, exec c s = .next t ∧ FlashSpared s t (.erase x) ∧
        t.store.free = s.store.free ∧ t.store.dirty = s.store.dirty.filter (· != x) ∧ t.store.bad = s.store.bad ++ [x] ∧
        Posted s t (.storeFault x .erase none) ∧ List.Forall₂ SlotSettled s.roster t.roster) ∧
    (∀ op, s.eng.op = some op → op.isErase = true ∨ op.isProgram = true → ∃ t, exec .flashOperationLimit s = .next t ∧
      t.eng.hold = true ∧ t.eng.op = none ∧ t.eng.suspended = none ∧ t.eng.suspCount = 0 ∧
      (∀ a, op.covers a = false → (∀ o, s.eng.suspended = some o → o.covers a = false) →
        flashRead t.flash a = flashRead s.flash a) ∧
      List.Forall₂ SlotSettled s.roster t.roster ∧ t.veh = s.veh ∧ t.time = s.time) ∧
    (∀ c, s.eng.suspended = none →
      ((∃ p, s.eng.op = some (.program p) ∧
          ((∃ b tk, p.kind = .block b tk) ∧ c = .pageProgramDone false ∨ p.kind = .identity ∧ c = .tagProgramDone false ∨
            p.kind = .closeMark ∧ c = .closeMarkProgramDone false ∨ p.kind = .dropMark ∧ c = .dropMarkProgramDone false)) ∨
        Calm s ∧ (∀ l, Asleep s l) ∧ (s.eng.op = some .settingsErase ∧ c = .settingsEraseDone false ∨
          ∃ n, s.eng.op = some (.settingsPage n) ∧ c = .settingsPageProgramDone false)) →
      ∃ t u, exec .flashOperationLimit s = .next t ∧ exec c s = .next u ∧ t = { u with eng := t.eng }) ∧
    (∀ op, s.eng.op = some op → op.isProgram = true →
      (∀ y, s.eng.suspended = some (.erase y) → s.store.dirty.head? = some y →
        ∃ t, exec .flashOperationLimit s = .next t ∧ t.store.dirty.head? = some y ∧ s.store.dirty <+: t.store.dirty) ∧
      (∀ p, s.eng.suspended = some .settingsErase → s.settings.op = .saving p →
        ∃ t, exec .flashOperationLimit s = .next t ∧ t.settings = { s.settings with op := .idle } ∧
          (t.port p).slot = none ∧ Posted s t (.saveDone .save true false) ∧
          readRecord (flashReadRange t.flash 0 1024) = none)) ∧
    (∀ op, s.eng.op = some op → op.isErase = false → op.isProgram = false → exec .flashOperationLimit s = .next s)

/-- A request of a higher class than a running erase, itself no erase, asks the erase's suspension once, while its suspension
count is below 32, and not at 32: the arbiter's choice, as WRITE BLOCK, CLOSE IMAGE, RELOAD SETTINGS and SAVE SETTINGS make it.
ERASE_SUSPENDED sets the erase aside with its count raised and serves the requests that wait, by class from 1 to 4; with none
to serve the erase is in progress again. When a read or a program served under the suspension ends, the next such request is
served, or the erase is in progress again, its count kept (R144, R146, R147).
RECOVERY_HOLD_END lets the engine choose again, by class from 1 to 5 and each from its head, and after a full reset asks for the settings read of the start-up load
(R143, R144, R146, R177). Nothing but the engine and the start-up phase changes. -/
def Obligations.TheEngineGoesOn : Prop :=
  ∀ s : State,
    let serves (f : FlashEngine) (er : FlashOp) := f.readA.isSome = true ∨ f.readB.isSome = true ∨ f.programs ≠ [] ∨
      f.checks ≠ [] ∨ er ≠ .settingsErase ∧ ∃ op, f.class4 = some op ∧ op.isErase = false
    (∀ f er, f.hold = false → f.op = some er → er.isErase = true → f.suspending = false →
      ∃ b, FlashEngine.choose f = { f with suspending := b } ∧ (b = true ↔ serves f er ∧ f.suspCount < 32)) ∧
    (∀ er p c higher, accepts s c = true → s.eng.op = some er → er.isErase = true → s.eng.hold = false →
      s.eng.suspending = false → s.halted = false →
      ((∃ id b data r x, c = .writeBlock p id b data ∧ s.image id = some r ∧ r.state = .receiving ∧ r.intake = some p ∧
            b < r.length ∧ r.blocks[b]? = some .missing ∧ r.extents[b / 15]? = some x) ∧ higher = true ∨
        (∃ id r, c = .closeImage p id ∧ s.image id = some r ∧ r.state = .receiving ∧ r.intake = some p ∧
            r.received = r.length ∧ r.markPending = false ∧ s.eng.checking id = false) ∧ higher = true ∨
        ¬ serves s.eng er ∧ s.wantFlash = s ∧
          (c = .reloadSettings p ∧ higher = (er != .settingsErase) ∨ c = .saveSettings p ∧ higher = false)) →
      ∃ t, exec c s = .next t ∧ t.eng.op = some er ∧ t.eng.suspCount = s.eng.suspCount ∧
        (t.eng.suspending = true ↔ higher = true ∧ s.eng.suspCount < 32)) ∧
    (∀ er c t, s.eng.suspended = some er → er.isErase = true → s.eng.hold = false → s.halted = false → s.opInside = true →
      ((∃ l r live, s.eng.op = some (.lineRead l r live) ∧ c = .lineReadDone) ∨
        (∃ p b tk ok, s.eng.op = some (.program p) ∧ p.kind = .block b tk ∧ c = .pageProgramDone ok) ∨
        (∃ p ok, s.eng.op = some (.program p) ∧ p.kind = .identity ∧ c = .tagProgramDone ok) ∨
        ∃ k live, s.eng.op = some (.checkRead k live) ∧ c = .closeCheckReadDone) → exec c s = .next t →
      t.eng.suspCount = s.eng.suspCount ∧
        ((∃ op, t.eng.suspended = some er ∧ t.eng.op = some op ∧ op.isErase = false) ∨
          t.eng.suspended = none ∧ t.eng.op = some er ∧ ¬ serves t.eng er)) ∧
    (∀ op, s.eng.suspending = true → s.eng.op = some op → op.isErase = true → s.eng.hold = false → s.halted = false →
      ∃ t, exec .eraseSuspended s = .next t ∧ t = { s with eng := t.eng } ∧
        (∀ r, s.eng.readA = some r →
          t.eng.suspended = some op ∧ t.eng.suspCount = s.eng.suspCount + 1 ∧ t.eng.suspending = false ∧
          t.eng.op = some (.lineRead .A r true) ∧ t.eng.readA = none) ∧
        (∀ r, s.eng.readA = none → s.eng.readB = some r →
          t.eng.suspended = some op ∧ t.eng.suspCount = s.eng.suspCount + 1 ∧
          t.eng.op = some (.lineRead .B r true) ∧ t.eng.readB = none) ∧
        (∀ q qs, s.eng.readA = none → s.eng.readB = none → s.eng.programs = q :: qs →
          t.eng.suspended = some op ∧ t.eng.suspCount = s.eng.suspCount + 1 ∧
          t.eng.op = some (.program q) ∧ t.eng.programs = qs) ∧
        (s.eng.readA = none → s.eng.readB = none → s.eng.programs = [] → s.wantFlash = s →
          t.eng.suspCount = s.eng.suspCount + 1 ∧ t.eng.suspending = false ∧
          (∀ k ks, s.eng.checks = k :: ks →
            t.eng.suspended = some op ∧ t.eng.op = some (.checkRead k true) ∧ t.eng.checks = ks) ∧
          (∀ w, s.eng.checks = [] → s.eng.class4 = some w → w.isErase = false → op ≠ .settingsErase →
            t.eng.suspended = some op ∧ t.eng.op = some w ∧ t.eng.class4 = none) ∧
          (¬ serves s.eng op → t.eng.suspended = none ∧ t.eng.op = some op))) ∧
    (s.eng.hold = true → ∃ t, exec .recoveryHoldEnd s = .next t ∧ t.eng.hold = false ∧
      t = { s with eng := t.eng, startup := t.startup } ∧
      (s.startup.stage = .deviceReset → t.startup = { s.startup with stage := .load } ∧ Class4Asked t .settingsRead) ∧
      (s.startup.stage ≠ .deviceReset → t.startup = s.startup ∧
        (s.halted = false → s.eng.op = none → s.eng.suspended = none →
          (∀ r, s.eng.readA = some r → t.eng.op = some (.lineRead .A r true)) ∧
          (∀ r, s.eng.readA = none → s.eng.readB = some r → t.eng.op = some (.lineRead .B r true)) ∧
          (s.eng.readA = none → s.eng.readB = none →
            (∀ q qs, s.eng.programs = q :: qs → t.eng.op = some (.program q) ∧ t.eng.programs = qs) ∧
            (s.eng.programs = [] → s.wantFlash = s →
              (∀ q qs, s.eng.checks = q :: qs → t.eng.op = some (.checkRead q true) ∧ t.eng.checks = qs) ∧
              (s.eng.checks = [] →
                (∀ op, s.eng.class4 = some op → t.eng.op = some op ∧ t.eng.class4 = none) ∧
                (s.eng.class4 = none → t.eng.op = s.eng.class5.map .erase ∧ t.eng.class5 = none)))))))

/-- The steps of a save: the erase of extent 0 is followed by the record's pages 0 to 3 in turn, and the last, or any that
fails, ends it with SAVE_DONE and an empty slot; a failed one leaves no valid record (R148, R175; the flash's contents by log
entries 4, 5 and 33). -/
def Obligations.SavesGoPageByPage : Prop :=
  ∀ (s : State) (p : Port), s.settings.op = .saving p → s.opInside = true → flashWf s.flash = true →
    let saved (t : State) (failed : Bool) := t.settings = { s.settings with op := .idle } ∧ (t.port p).slot = none ∧
      Posted s t (.saveDone .save failed false) ∧
      t = { s with settings := t.settings, eng := t.eng, flash := t.flash, flashUse := t.flashUse, portY := t.portY,
                   portV := t.portV, portS := t.portS }
    (s.eng.op = some .settingsErase →
      (∃ t, exec (.settingsEraseDone true) s = .next t ∧ FlashErased s t 0 4096 ∧ Class4Asked t (.settingsPage 0) ∧
        t = { s with eng := t.eng, flash := t.flash }) ∧
      (∃ t, exec (.settingsEraseDone false) s = .next t ∧ FlashSpared s t .settingsErase ∧ saved t true ∧
        readRecord (flashReadRange t.flash 0 1024) = none)) ∧
    (∀ n, s.eng.op = some (.settingsPage n) →
      (n < 3 → ∃ t, exec (.settingsPageProgramDone true) s = .next t ∧
        FlashTook s t (n * 256) ((s.settings.snapshot.drop (n * 256)).take 256) ∧ Class4Asked t (.settingsPage (n + 1)) ∧
        t = { s with eng := t.eng, flash := t.flash }) ∧
      (n = 3 → ∃ t, exec (.settingsPageProgramDone true) s = .next t ∧
        FlashTook s t (n * 256) ((s.settings.snapshot.drop (n * 256)).take 256) ∧ saved t false) ∧
      (∃ t, exec (.settingsPageProgramDone false) s = .next t ∧ FlashSpared s t (.settingsPage n) ∧ saved t true ∧
        (n ≤ 3 → readRecord (flashReadRange t.flash 0 1024) = none)))

/-- The settings read applies the set of a valid record, or the factory defaults, to the lines, the guard, the profiles, the
plan, the pins and the held serials, in the steps of R174: each line's state follows its enable flag (R86), each entry's
profile is looked up again (R11), and all units are resolved (R32; a unit LOADING on a line that is disabled by the set
apart, R62); a reload ends with SAVE_DONE, and the start-up load goes on to the scan of the tags, which reads extents 1 to
2047 in turn and leaves the store it rebuilds and the full sweeps begun (R139, R140, R174, R176, R177): an erased tag's
extent is FREE, the first 24 accepted groups are STORED records, every other extent is DIRTY, and INTAKE_LOST is noted when a
group lacks a close mark. A line that the set disables has its part of an outstanding SWEEP NOW cut off (R17, R86). At the
end of the scan, with no line ACTIVE and so no start-up sweep to make, the start-up phase ends at once with STARTED;
otherwise it goes on to the sweeps, and nothing is posted yet (R177). -/
def Obligations.SettingsAndTagsAreRead : Prop :=
  ∀ s : State, s.opInside = true →
    (s.eng.op = some .settingsRead →
      let found := readRecord (flashReadRange s.flash 0 1024)
      let x := found.getD factorySet
      let applied (t : State) := t.lineA.settings = clampLine x.lineA ∧ t.lineB.settings = clampLine x.lineB ∧
        t.guardTime = min 3600 x.guardTime ∧ t.profiles = clampProfiles s.profiles x.profiles ∧ t.rules = x.rules ∧
        t.yardPins = x.yardPins ∧ t.servicePins = x.servicePins ∧ t.heldSerials = x.heldSerials ∧
        t.settings = { s.settings with op := .idle } ∧ t.flash = s.flash ∧ t.veh = s.veh ∧
        (t.time.window = .closed ↔ ∃ c, s.time.countdown = some c ∧ c ≤ min 3600 x.guardTime) ∧
        (∀ l, (t.line l).state = if (t.line l).settings.enable = false then .disabled
          else if (s.line l).state = .disabled then .active else (s.line l).state) ∧
        (∀ k e, s.entry k = some e → ∃ f, t.entry k = some f ∧ ProfileFor t.profiles e.classCode f.profile ∧
          f.estimate = if f.profile ≠ e.profile then (t.profile f.profile).seed else e.estimate) ∧
        (DirectoryLegal s → ∀ k e, k < 32 → s.entry k = some e → e.serial ∉ x.heldSerials →
          (e.state = .loading → (t.line e.line).settings.enable = false → (s.line e.line).state = .disabled) →
          ResolvedAt { s with rules := x.rules } t k
            { e with yardPin := pinFor x.yardPins e.serial, servicePin := pinFor x.servicePins e.serial }) ∧
        ∀ k e, s.entry k = some e → ∃ f, t.entry k = some f ∧ f.serial = e.serial ∧
          f.yardPin = pinFor x.yardPins e.serial ∧ f.servicePin = pinFor x.servicePins e.serial ∧
          (e.state = .held → f.state = .held) ∧
          (e.serial ∈ x.heldSerials → k < 32 → f.state = .held ∧ (e.state ≠ .held →
            (∀ n g, n ≠ k → s.entry n = some g → g.serial ∉ x.heldSerials) → Posted s t (.unitHeld k)))
      let cut (t : State) := SweepParts s t fun l =>
        if (s.line l).state ≠ .disabled ∧ (t.line l).settings.enable = false then some .cut else none
      (∀ p, s.settings.op = .reloading p → ∃ t, exec .settingsReadDone s = .next t ∧ applied t ∧
        (t.port p).slot = none ∧ Posted s t (.saveDone .reload false found.isNone) ∧
        ((∀ a b, (s.port p).slot ≠ some (.sweepNow a b)) → cut t)) ∧
      (s.settings.op = .loading → ∃ t, exec .settingsReadDone s = .next t ∧ applied t ∧ cut t ∧
        t.startup = { s.startup with stage := .scan, loadFailed := found.isNone } ∧ Class4Asked t (.tagRead 1))) ∧
    (∀ x, s.eng.op = some (.tagRead x) →
      ∃ c, TagClassed (flashReadRange s.flash (x * 4096) 256) c ∧
      let xs := s.startup.scanned ++ [(x, c)]
      (x < 2047 → s.startup.stage ≠ .sweeps → (∀ p, s.settings.op ≠ .reloading p) →
        ∃ t, exec .tagReadDone s = .next t ∧ Class4Asked t (.tagRead (x + 1)) ∧
          Settled { s with startup := { s.startup with scanned := xs } } t) ∧
      (x = 2047 → ∃ t b, exec .tagReadDone s = .next t ∧ Rebuilt xs b ∧ StoreSettled b t.store ∧
        (t.startup.intakeLost = true ↔ LacksClose xs) ∧ t.startup.loadFailed = s.startup.loadFailed ∧ t.startup.scanned = [] ∧
        (t.startup.stage = .sweeps ∨ t.startup.stage = .running) ∧
        (let runs := t.startup.stage = .running ∧ Posted s t (.started t.startup.intakeLost t.startup.loadFailed)
         ((∀ l, (s.line l).startSweep = false) → runs) ∧
          ((∃ l, (s.line l).startSweep = true) → t.startup.stage = .sweeps ∧ NotPosted s t 0) ∧
          (StartUpLegal s → (∀ l, (s.line l).state ≠ .active) → runs)) ∧
        (∀ l, (s.line l).state = .active → (t.line l).sweep =
          some { kind := .full, cursor := 1, lastProbe := s.now, fullPosted := false }) ∧
        (t.store.free.length < 64 → Posted s t
          (.storeLow b.free.length b.dirty.length b.bad.length)) ∧
        t.flash = s.flash ∧ t.roster.length = s.roster.length))

/-- The settings record of working memory reads back as what was saved: every line setting, the guard, every profile, rule,
pin and held serial, with its CRC-32 right and 1024 bytes in all (R173, R175). -/
def Obligations.SettingsRecordReadsBack : Prop :=
  ∀ s : State, RecordLegal s → s.record.length = 1024 ∧ readRecord s.record = some
    { lineA := s.lineA.settings.args, lineB := s.lineB.settings.args, guardTime := s.guardTime
      profiles := s.profiles.map Profile.args, rules := s.rules, yardPins := s.yardPins, servicePins := s.servicePins
      heldSerials := s.heldSerials }
end

