-- ==== Sys2Proof/Laws/State.lean ====
section
/-!
SUPPORT. What each small update of the state leaves as it was, one lemma per field per update, so that no later proof
unfolds a record update; and what it writes.
-/

namespace Sys2Proof.Machine

open Sys2Proof

variable (s : State)

/-! ### modLine -/

@[simp] theorem State.modLine_pending (l : Line) (f : LineEngine → LineEngine) : (s.modLine l f).pending = s.pending := by
  cases l <;> rfl
@[simp] theorem State.modLine_now (l : Line) (f : LineEngine → LineEngine) : (s.modLine l f).now = s.now := by
  cases l <;> rfl
@[simp] theorem State.modLine_time (l : Line) (f : LineEngine → LineEngine) : (s.modLine l f).time = s.time := by
  cases l <;> rfl
@[simp] theorem State.modLine_guardTime (l : Line) (f : LineEngine → LineEngine) : (s.modLine l f).guardTime = s.guardTime := by
  cases l <;> rfl
@[simp] theorem State.modLine_veh (l : Line) (f : LineEngine → LineEngine) : (s.modLine l f).veh = s.veh := by
  cases l <;> rfl
@[simp] theorem State.modLine_startup (l : Line) (f : LineEngine → LineEngine) : (s.modLine l f).startup = s.startup := by
  cases l <;> rfl
@[simp] theorem State.modLine_roster (l : Line) (f : LineEngine → LineEngine) : (s.modLine l f).roster = s.roster := by
  cases l <;> rfl
@[simp] theorem State.modLine_heldSerials (l : Line) (f : LineEngine → LineEngine) : (s.modLine l f).heldSerials = s.heldSerials := by
  cases l <;> rfl
@[simp] theorem State.modLine_profiles (l : Line) (f : LineEngine → LineEngine) : (s.modLine l f).profiles = s.profiles := by
  cases l <;> rfl
@[simp] theorem State.modLine_rules (l : Line) (f : LineEngine → LineEngine) : (s.modLine l f).rules = s.rules := by
  cases l <;> rfl
@[simp] theorem State.modLine_yardPins (l : Line) (f : LineEngine → LineEngine) : (s.modLine l f).yardPins = s.yardPins := by
  cases l <;> rfl
@[simp] theorem State.modLine_servicePins (l : Line) (f : LineEngine → LineEngine) : (s.modLine l f).servicePins = s.servicePins := by
  cases l <;> rfl
@[simp] theorem State.modLine_jobs (l : Line) (f : LineEngine → LineEngine) : (s.modLine l f).jobs = s.jobs := by
  cases l <;> rfl
@[simp] theorem State.modLine_store (l : Line) (f : LineEngine → LineEngine) : (s.modLine l f).store = s.store := by
  cases l <;> rfl
@[simp] theorem State.modLine_eng (l : Line) (f : LineEngine → LineEngine) : (s.modLine l f).eng = s.eng := by
  cases l <;> rfl
@[simp] theorem State.modLine_flash (l : Line) (f : LineEngine → LineEngine) : (s.modLine l f).flash = s.flash := by
  cases l <;> rfl
@[simp] theorem State.modLine_flashUse (l : Line) (f : LineEngine → LineEngine) : (s.modLine l f).flashUse = s.flashUse := by
  cases l <;> rfl
@[simp] theorem State.modLine_settings (l : Line) (f : LineEngine → LineEngine) : (s.modLine l f).settings = s.settings := by
  cases l <;> rfl
@[simp] theorem State.modLine_portY (l : Line) (f : LineEngine → LineEngine) : (s.modLine l f).portY = s.portY := by
  cases l <;> rfl
@[simp] theorem State.modLine_portV (l : Line) (f : LineEngine → LineEngine) : (s.modLine l f).portV = s.portV := by
  cases l <;> rfl
@[simp] theorem State.modLine_portS (l : Line) (f : LineEngine → LineEngine) : (s.modLine l f).portS = s.portS := by
  cases l <;> rfl

@[simp] theorem State.modLine_same (l : Line) (f : LineEngine → LineEngine) : (s.modLine l f).line l = f (s.line l) := by
  cases l <;> rfl
theorem State.modLine_other {l m : Line} (h : m ≠ l) (f : LineEngine → LineEngine) :
    (s.modLine l f).line m = s.line m := by
  cases l <;> cases m <;> first | rfl | exact absurd rfl h
@[simp] theorem State.modLine_port (l : Line) (f : LineEngine → LineEngine) (p : Port) :
    (s.modLine l f).port p = s.port p := by
  cases l <;> cases p <;> rfl
@[simp] theorem State.modLine_entry (l : Line) (f : LineEngine → LineEngine) (i : Nat) :
    (s.modLine l f).entry i = s.entry i := by
  cases l <;> rfl
@[simp] theorem State.modLine_job (l : Line) (f : LineEngine → LineEngine) (t : Nat) :
    (s.modLine l f).job t = s.job t := by
  cases l <;> rfl
@[simp] theorem State.modLine_image (l : Line) (f : LineEngine → LineEngine) (id : Nat) :
    (s.modLine l f).image id = s.image id := by
  cases l <;> rfl

/-! ### modPort -/

@[simp] theorem State.modPort_pending (p : Port) (f : PortState → PortState) : (s.modPort p f).pending = s.pending := by
  cases p <;> rfl
@[simp] theorem State.modPort_now (p : Port) (f : PortState → PortState) : (s.modPort p f).now = s.now := by
  cases p <;> rfl
@[simp] theorem State.modPort_time (p : Port) (f : PortState → PortState) : (s.modPort p f).time = s.time := by
  cases p <;> rfl
@[simp] theorem State.modPort_guardTime (p : Port) (f : PortState → PortState) : (s.modPort p f).guardTime = s.guardTime := by
  cases p <;> rfl
@[simp] theorem State.modPort_veh (p : Port) (f : PortState → PortState) : (s.modPort p f).veh = s.veh := by
  cases p <;> rfl
@[simp] theorem State.modPort_startup (p : Port) (f : PortState → PortState) : (s.modPort p f).startup = s.startup := by
  cases p <;> rfl
@[simp] theorem State.modPort_roster (p : Port) (f : PortState → PortState) : (s.modPort p f).roster = s.roster := by
  cases p <;> rfl
@[simp] theorem State.modPort_heldSerials (p : Port) (f : PortState → PortState) : (s.modPort p f).heldSerials = s.heldSerials := by
  cases p <;> rfl
@[simp] theorem State.modPort_profiles (p : Port) (f : PortState → PortState) : (s.modPort p f).profiles = s.profiles := by
  cases p <;> rfl
@[simp] theorem State.modPort_rules (p : Port) (f : PortState → PortState) : (s.modPort p f).rules = s.rules := by
  cases p <;> rfl
@[simp] theorem State.modPort_yardPins (p : Port) (f : PortState → PortState) : (s.modPort p f).yardPins = s.yardPins := by
  cases p <;> rfl
@[simp] theorem State.modPort_servicePins (p : Port) (f : PortState → PortState) : (s.modPort p f).servicePins = s.servicePins := by
  cases p <;> rfl
@[simp] theorem State.modPort_jobs (p : Port) (f : PortState → PortState) : (s.modPort p f).jobs = s.jobs := by
  cases p <;> rfl
@[simp] theorem State.modPort_lineA (p : Port) (f : PortState → PortState) : (s.modPort p f).lineA = s.lineA := by
  cases p <;> rfl
@[simp] theorem State.modPort_lineB (p : Port) (f : PortState → PortState) : (s.modPort p f).lineB = s.lineB := by
  cases p <;> rfl
@[simp] theorem State.modPort_store (p : Port) (f : PortState → PortState) : (s.modPort p f).store = s.store := by
  cases p <;> rfl
@[simp] theorem State.modPort_eng (p : Port) (f : PortState → PortState) : (s.modPort p f).eng = s.eng := by
  cases p <;> rfl
@[simp] theorem State.modPort_flash (p : Port) (f : PortState → PortState) : (s.modPort p f).flash = s.flash := by
  cases p <;> rfl
@[simp] theorem State.modPort_flashUse (p : Port) (f : PortState → PortState) : (s.modPort p f).flashUse = s.flashUse := by
  cases p <;> rfl
@[simp] theorem State.modPort_settings (p : Port) (f : PortState → PortState) : (s.modPort p f).settings = s.settings := by
  cases p <;> rfl

@[simp] theorem State.modPort_same (p : Port) (f : PortState → PortState) : (s.modPort p f).port p = f (s.port p) := by
  cases p <;> rfl
theorem State.modPort_other {p q : Port} (h : q ≠ p) (f : PortState → PortState) :
    (s.modPort p f).port q = s.port q := by
  cases p <;> cases q <;> first | rfl | exact absurd rfl h
@[simp] theorem State.modPort_line (p : Port) (f : PortState → PortState) (l : Line) :
    (s.modPort p f).line l = s.line l := by
  cases l <;> cases p <;> rfl
@[simp] theorem State.modPort_entry (p : Port) (f : PortState → PortState) (i : Nat) :
    (s.modPort p f).entry i = s.entry i := by
  cases p <;> rfl
@[simp] theorem State.modPort_job (p : Port) (f : PortState → PortState) (t : Nat) :
    (s.modPort p f).job t = s.job t := by
  cases p <;> rfl
@[simp] theorem State.modPort_image (p : Port) (f : PortState → PortState) (id : Nat) :
    (s.modPort p f).image id = s.image id := by
  cases p <;> rfl

/-! ### setEntry -/

@[simp] theorem State.setEntry_pending (i : Nat) (e : Option Entry) : (s.setEntry i e).pending = s.pending := by
  rfl
@[simp] theorem State.setEntry_now (i : Nat) (e : Option Entry) : (s.setEntry i e).now = s.now := by
  rfl
@[simp] theorem State.setEntry_time (i : Nat) (e : Option Entry) : (s.setEntry i e).time = s.time := by
  rfl
@[simp] theorem State.setEntry_guardTime (i : Nat) (e : Option Entry) : (s.setEntry i e).guardTime = s.guardTime := by
  rfl
@[simp] theorem State.setEntry_veh (i : Nat) (e : Option Entry) : (s.setEntry i e).veh = s.veh := by
  rfl
@[simp] theorem State.setEntry_startup (i : Nat) (e : Option Entry) : (s.setEntry i e).startup = s.startup := by
  rfl
@[simp] theorem State.setEntry_heldSerials (i : Nat) (e : Option Entry) : (s.setEntry i e).heldSerials = s.heldSerials := by
  rfl
@[simp] theorem State.setEntry_profiles (i : Nat) (e : Option Entry) : (s.setEntry i e).profiles = s.profiles := by
  rfl
@[simp] theorem State.setEntry_rules (i : Nat) (e : Option Entry) : (s.setEntry i e).rules = s.rules := by
  rfl
@[simp] theorem State.setEntry_yardPins (i : Nat) (e : Option Entry) : (s.setEntry i e).yardPins = s.yardPins := by
  rfl
@[simp] theorem State.setEntry_servicePins (i : Nat) (e : Option Entry) : (s.setEntry i e).servicePins = s.servicePins := by
  rfl
@[simp] theorem State.setEntry_jobs (i : Nat) (e : Option Entry) : (s.setEntry i e).jobs = s.jobs := by
  rfl
@[simp] theorem State.setEntry_lineA (i : Nat) (e : Option Entry) : (s.setEntry i e).lineA = s.lineA := by
  rfl
@[simp] theorem State.setEntry_lineB (i : Nat) (e : Option Entry) : (s.setEntry i e).lineB = s.lineB := by
  rfl
@[simp] theorem State.setEntry_store (i : Nat) (e : Option Entry) : (s.setEntry i e).store = s.store := by
  rfl
@[simp] theorem State.setEntry_eng (i : Nat) (e : Option Entry) : (s.setEntry i e).eng = s.eng := by
  rfl
@[simp] theorem State.setEntry_flash (i : Nat) (e : Option Entry) : (s.setEntry i e).flash = s.flash := by
  rfl
@[simp] theorem State.setEntry_flashUse (i : Nat) (e : Option Entry) : (s.setEntry i e).flashUse = s.flashUse := by
  rfl
@[simp] theorem State.setEntry_settings (i : Nat) (e : Option Entry) : (s.setEntry i e).settings = s.settings := by
  rfl
@[simp] theorem State.setEntry_portY (i : Nat) (e : Option Entry) : (s.setEntry i e).portY = s.portY := by
  rfl
@[simp] theorem State.setEntry_portV (i : Nat) (e : Option Entry) : (s.setEntry i e).portV = s.portV := by
  rfl
@[simp] theorem State.setEntry_portS (i : Nat) (e : Option Entry) : (s.setEntry i e).portS = s.portS := by
  rfl

/-! ### modEntry -/

@[simp] theorem State.modEntry_pending (i : Nat) (f : Entry → Entry) : (s.modEntry i f).pending = s.pending := by
  unfold State.modEntry; split <;> rfl
@[simp] theorem State.modEntry_now (i : Nat) (f : Entry → Entry) : (s.modEntry i f).now = s.now := by
  unfold State.modEntry; split <;> rfl
@[simp] theorem State.modEntry_time (i : Nat) (f : Entry → Entry) : (s.modEntry i f).time = s.time := by
  unfold State.modEntry; split <;> rfl
@[simp] theorem State.modEntry_guardTime (i : Nat) (f : Entry → Entry) : (s.modEntry i f).guardTime = s.guardTime := by
  unfold State.modEntry; split <;> rfl
@[simp] theorem State.modEntry_veh (i : Nat) (f : Entry → Entry) : (s.modEntry i f).veh = s.veh := by
  unfold State.modEntry; split <;> rfl
@[simp] theorem State.modEntry_startup (i : Nat) (f : Entry → Entry) : (s.modEntry i f).startup = s.startup := by
  unfold State.modEntry; split <;> rfl
@[simp] theorem State.modEntry_heldSerials (i : Nat) (f : Entry → Entry) : (s.modEntry i f).heldSerials = s.heldSerials := by
  unfold State.modEntry; split <;> rfl
@[simp] theorem State.modEntry_profiles (i : Nat) (f : Entry → Entry) : (s.modEntry i f).profiles = s.profiles := by
  unfold State.modEntry; split <;> rfl
@[simp] theorem State.modEntry_rules (i : Nat) (f : Entry → Entry) : (s.modEntry i f).rules = s.rules := by
  unfold State.modEntry; split <;> rfl
@[simp] theorem State.modEntry_yardPins (i : Nat) (f : Entry → Entry) : (s.modEntry i f).yardPins = s.yardPins := by
  unfold State.modEntry; split <;> rfl
@[simp] theorem State.modEntry_servicePins (i : Nat) (f : Entry → Entry) : (s.modEntry i f).servicePins = s.servicePins := by
  unfold State.modEntry; split <;> rfl
@[simp] theorem State.modEntry_jobs (i : Nat) (f : Entry → Entry) : (s.modEntry i f).jobs = s.jobs := by
  unfold State.modEntry; split <;> rfl
@[simp] theorem State.modEntry_lineA (i : Nat) (f : Entry → Entry) : (s.modEntry i f).lineA = s.lineA := by
  unfold State.modEntry; split <;> rfl
@[simp] theorem State.modEntry_lineB (i : Nat) (f : Entry → Entry) : (s.modEntry i f).lineB = s.lineB := by
  unfold State.modEntry; split <;> rfl
@[simp] theorem State.modEntry_store (i : Nat) (f : Entry → Entry) : (s.modEntry i f).store = s.store := by
  unfold State.modEntry; split <;> rfl
@[simp] theorem State.modEntry_eng (i : Nat) (f : Entry → Entry) : (s.modEntry i f).eng = s.eng := by
  unfold State.modEntry; split <;> rfl
@[simp] theorem State.modEntry_flash (i : Nat) (f : Entry → Entry) : (s.modEntry i f).flash = s.flash := by
  unfold State.modEntry; split <;> rfl
@[simp] theorem State.modEntry_flashUse (i : Nat) (f : Entry → Entry) : (s.modEntry i f).flashUse = s.flashUse := by
  unfold State.modEntry; split <;> rfl
@[simp] theorem State.modEntry_settings (i : Nat) (f : Entry → Entry) : (s.modEntry i f).settings = s.settings := by
  unfold State.modEntry; split <;> rfl
@[simp] theorem State.modEntry_portY (i : Nat) (f : Entry → Entry) : (s.modEntry i f).portY = s.portY := by
  unfold State.modEntry; split <;> rfl
@[simp] theorem State.modEntry_portV (i : Nat) (f : Entry → Entry) : (s.modEntry i f).portV = s.portV := by
  unfold State.modEntry; split <;> rfl
@[simp] theorem State.modEntry_portS (i : Nat) (f : Entry → Entry) : (s.modEntry i f).portS = s.portS := by
  unfold State.modEntry; split <;> rfl

/-! ### setJob -/

@[simp] theorem State.setJob_pending (t : Nat) (j : Option Job) : (s.setJob t j).pending = s.pending := by
  rfl
@[simp] theorem State.setJob_now (t : Nat) (j : Option Job) : (s.setJob t j).now = s.now := by
  rfl
@[simp] theorem State.setJob_time (t : Nat) (j : Option Job) : (s.setJob t j).time = s.time := by
  rfl
@[simp] theorem State.setJob_guardTime (t : Nat) (j : Option Job) : (s.setJob t j).guardTime = s.guardTime := by
  rfl
@[simp] theorem State.setJob_veh (t : Nat) (j : Option Job) : (s.setJob t j).veh = s.veh := by
  rfl
@[simp] theorem State.setJob_startup (t : Nat) (j : Option Job) : (s.setJob t j).startup = s.startup := by
  rfl
@[simp] theorem State.setJob_roster (t : Nat) (j : Option Job) : (s.setJob t j).roster = s.roster := by
  rfl
@[simp] theorem State.setJob_heldSerials (t : Nat) (j : Option Job) : (s.setJob t j).heldSerials = s.heldSerials := by
  rfl
@[simp] theorem State.setJob_profiles (t : Nat) (j : Option Job) : (s.setJob t j).profiles = s.profiles := by
  rfl
@[simp] theorem State.setJob_rules (t : Nat) (j : Option Job) : (s.setJob t j).rules = s.rules := by
  rfl
@[simp] theorem State.setJob_yardPins (t : Nat) (j : Option Job) : (s.setJob t j).yardPins = s.yardPins := by
  rfl
@[simp] theorem State.setJob_servicePins (t : Nat) (j : Option Job) : (s.setJob t j).servicePins = s.servicePins := by
  rfl
@[simp] theorem State.setJob_lineA (t : Nat) (j : Option Job) : (s.setJob t j).lineA = s.lineA := by
  rfl
@[simp] theorem State.setJob_lineB (t : Nat) (j : Option Job) : (s.setJob t j).lineB = s.lineB := by
  rfl
@[simp] theorem State.setJob_store (t : Nat) (j : Option Job) : (s.setJob t j).store = s.store := by
  rfl
@[simp] theorem State.setJob_eng (t : Nat) (j : Option Job) : (s.setJob t j).eng = s.eng := by
  rfl
@[simp] theorem State.setJob_flash (t : Nat) (j : Option Job) : (s.setJob t j).flash = s.flash := by
  rfl
@[simp] theorem State.setJob_flashUse (t : Nat) (j : Option Job) : (s.setJob t j).flashUse = s.flashUse := by
  rfl
@[simp] theorem State.setJob_settings (t : Nat) (j : Option Job) : (s.setJob t j).settings = s.settings := by
  rfl
@[simp] theorem State.setJob_portY (t : Nat) (j : Option Job) : (s.setJob t j).portY = s.portY := by
  rfl
@[simp] theorem State.setJob_portV (t : Nat) (j : Option Job) : (s.setJob t j).portV = s.portV := by
  rfl
@[simp] theorem State.setJob_portS (t : Nat) (j : Option Job) : (s.setJob t j).portS = s.portS := by
  rfl

/-! ### modJob -/

@[simp] theorem State.modJob_pending (t : Nat) (f : Job → Job) : (s.modJob t f).pending = s.pending := by
  unfold State.modJob; split <;> rfl
@[simp] theorem State.modJob_now (t : Nat) (f : Job → Job) : (s.modJob t f).now = s.now := by
  unfold State.modJob; split <;> rfl
@[simp] theorem State.modJob_time (t : Nat) (f : Job → Job) : (s.modJob t f).time = s.time := by
  unfold State.modJob; split <;> rfl
@[simp] theorem State.modJob_guardTime (t : Nat) (f : Job → Job) : (s.modJob t f).guardTime = s.guardTime := by
  unfold State.modJob; split <;> rfl
@[simp] theorem State.modJob_veh (t : Nat) (f : Job → Job) : (s.modJob t f).veh = s.veh := by
  unfold State.modJob; split <;> rfl
@[simp] theorem State.modJob_startup (t : Nat) (f : Job → Job) : (s.modJob t f).startup = s.startup := by
  unfold State.modJob; split <;> rfl
@[simp] theorem State.modJob_roster (t : Nat) (f : Job → Job) : (s.modJob t f).roster = s.roster := by
  unfold State.modJob; split <;> rfl
@[simp] theorem State.modJob_heldSerials (t : Nat) (f : Job → Job) : (s.modJob t f).heldSerials = s.heldSerials := by
  unfold State.modJob; split <;> rfl
@[simp] theorem State.modJob_profiles (t : Nat) (f : Job → Job) : (s.modJob t f).profiles = s.profiles := by
  unfold State.modJob; split <;> rfl
@[simp] theorem State.modJob_rules (t : Nat) (f : Job → Job) : (s.modJob t f).rules = s.rules := by
  unfold State.modJob; split <;> rfl
@[simp] theorem State.modJob_yardPins (t : Nat) (f : Job → Job) : (s.modJob t f).yardPins = s.yardPins := by
  unfold State.modJob; split <;> rfl
@[simp] theorem State.modJob_servicePins (t : Nat) (f : Job → Job) : (s.modJob t f).servicePins = s.servicePins := by
  unfold State.modJob; split <;> rfl
@[simp] theorem State.modJob_lineA (t : Nat) (f : Job → Job) : (s.modJob t f).lineA = s.lineA := by
  unfold State.modJob; split <;> rfl
@[simp] theorem State.modJob_lineB (t : Nat) (f : Job → Job) : (s.modJob t f).lineB = s.lineB := by
  unfold State.modJob; split <;> rfl
@[simp] theorem State.modJob_store (t : Nat) (f : Job → Job) : (s.modJob t f).store = s.store := by
  unfold State.modJob; split <;> rfl
@[simp] theorem State.modJob_eng (t : Nat) (f : Job → Job) : (s.modJob t f).eng = s.eng := by
  unfold State.modJob; split <;> rfl
@[simp] theorem State.modJob_flash (t : Nat) (f : Job → Job) : (s.modJob t f).flash = s.flash := by
  unfold State.modJob; split <;> rfl
@[simp] theorem State.modJob_flashUse (t : Nat) (f : Job → Job) : (s.modJob t f).flashUse = s.flashUse := by
  unfold State.modJob; split <;> rfl
@[simp] theorem State.modJob_settings (t : Nat) (f : Job → Job) : (s.modJob t f).settings = s.settings := by
  unfold State.modJob; split <;> rfl
@[simp] theorem State.modJob_portY (t : Nat) (f : Job → Job) : (s.modJob t f).portY = s.portY := by
  unfold State.modJob; split <;> rfl
@[simp] theorem State.modJob_portV (t : Nat) (f : Job → Job) : (s.modJob t f).portV = s.portV := by
  unfold State.modJob; split <;> rfl
@[simp] theorem State.modJob_portS (t : Nat) (f : Job → Job) : (s.modJob t f).portS = s.portS := by
  unfold State.modJob; split <;> rfl

/-! ### modStore -/

@[simp] theorem State.modStore_pending (f : Store → Store) : (s.modStore f).pending = s.pending := by
  rfl
@[simp] theorem State.modStore_now (f : Store → Store) : (s.modStore f).now = s.now := by
  rfl
@[simp] theorem State.modStore_time (f : Store → Store) : (s.modStore f).time = s.time := by
  rfl
@[simp] theorem State.modStore_guardTime (f : Store → Store) : (s.modStore f).guardTime = s.guardTime := by
  rfl
@[simp] theorem State.modStore_veh (f : Store → Store) : (s.modStore f).veh = s.veh := by
  rfl
@[simp] theorem State.modStore_startup (f : Store → Store) : (s.modStore f).startup = s.startup := by
  rfl
@[simp] theorem State.modStore_roster (f : Store → Store) : (s.modStore f).roster = s.roster := by
  rfl
@[simp] theorem State.modStore_heldSerials (f : Store → Store) : (s.modStore f).heldSerials = s.heldSerials := by
  rfl
@[simp] theorem State.modStore_profiles (f : Store → Store) : (s.modStore f).profiles = s.profiles := by
  rfl
@[simp] theorem State.modStore_rules (f : Store → Store) : (s.modStore f).rules = s.rules := by
  rfl
@[simp] theorem State.modStore_yardPins (f : Store → Store) : (s.modStore f).yardPins = s.yardPins := by
  rfl
@[simp] theorem State.modStore_servicePins (f : Store → Store) : (s.modStore f).servicePins = s.servicePins := by
  rfl
@[simp] theorem State.modStore_jobs (f : Store → Store) : (s.modStore f).jobs = s.jobs := by
  rfl
@[simp] theorem State.modStore_lineA (f : Store → Store) : (s.modStore f).lineA = s.lineA := by
  rfl
@[simp] theorem State.modStore_lineB (f : Store → Store) : (s.modStore f).lineB = s.lineB := by
  rfl
@[simp] theorem State.modStore_eng (f : Store → Store) : (s.modStore f).eng = s.eng := by
  rfl
@[simp] theorem State.modStore_flash (f : Store → Store) : (s.modStore f).flash = s.flash := by
  rfl
@[simp] theorem State.modStore_flashUse (f : Store → Store) : (s.modStore f).flashUse = s.flashUse := by
  rfl
@[simp] theorem State.modStore_settings (f : Store → Store) : (s.modStore f).settings = s.settings := by
  rfl
@[simp] theorem State.modStore_portY (f : Store → Store) : (s.modStore f).portY = s.portY := by
  rfl
@[simp] theorem State.modStore_portV (f : Store → Store) : (s.modStore f).portV = s.portV := by
  rfl
@[simp] theorem State.modStore_portS (f : Store → Store) : (s.modStore f).portS = s.portS := by
  rfl

/-! ### modImage -/

@[simp] theorem State.modImage_pending (id : Nat) (f : Image → Image) : (s.modImage id f).pending = s.pending := by
  rfl
@[simp] theorem State.modImage_now (id : Nat) (f : Image → Image) : (s.modImage id f).now = s.now := by
  rfl
@[simp] theorem State.modImage_time (id : Nat) (f : Image → Image) : (s.modImage id f).time = s.time := by
  rfl
@[simp] theorem State.modImage_guardTime (id : Nat) (f : Image → Image) : (s.modImage id f).guardTime = s.guardTime := by
  rfl
@[simp] theorem State.modImage_veh (id : Nat) (f : Image → Image) : (s.modImage id f).veh = s.veh := by
  rfl
@[simp] theorem State.modImage_startup (id : Nat) (f : Image → Image) : (s.modImage id f).startup = s.startup := by
  rfl
@[simp] theorem State.modImage_roster (id : Nat) (f : Image → Image) : (s.modImage id f).roster = s.roster := by
  rfl
@[simp] theorem State.modImage_heldSerials (id : Nat) (f : Image → Image) : (s.modImage id f).heldSerials = s.heldSerials := by
  rfl
@[simp] theorem State.modImage_profiles (id : Nat) (f : Image → Image) : (s.modImage id f).profiles = s.profiles := by
  rfl
@[simp] theorem State.modImage_rules (id : Nat) (f : Image → Image) : (s.modImage id f).rules = s.rules := by
  rfl
@[simp] theorem State.modImage_yardPins (id : Nat) (f : Image → Image) : (s.modImage id f).yardPins = s.yardPins := by
  rfl
@[simp] theorem State.modImage_servicePins (id : Nat) (f : Image → Image) : (s.modImage id f).servicePins = s.servicePins := by
  rfl
@[simp] theorem State.modImage_jobs (id : Nat) (f : Image → Image) : (s.modImage id f).jobs = s.jobs := by
  rfl
@[simp] theorem State.modImage_lineA (id : Nat) (f : Image → Image) : (s.modImage id f).lineA = s.lineA := by
  rfl
@[simp] theorem State.modImage_lineB (id : Nat) (f : Image → Image) : (s.modImage id f).lineB = s.lineB := by
  rfl
@[simp] theorem State.modImage_eng (id : Nat) (f : Image → Image) : (s.modImage id f).eng = s.eng := by
  rfl
@[simp] theorem State.modImage_flash (id : Nat) (f : Image → Image) : (s.modImage id f).flash = s.flash := by
  rfl
@[simp] theorem State.modImage_flashUse (id : Nat) (f : Image → Image) : (s.modImage id f).flashUse = s.flashUse := by
  rfl
@[simp] theorem State.modImage_settings (id : Nat) (f : Image → Image) : (s.modImage id f).settings = s.settings := by
  rfl
@[simp] theorem State.modImage_portY (id : Nat) (f : Image → Image) : (s.modImage id f).portY = s.portY := by
  rfl
@[simp] theorem State.modImage_portV (id : Nat) (f : Image → Image) : (s.modImage id f).portV = s.portV := by
  rfl
@[simp] theorem State.modImage_portS (id : Nat) (f : Image → Image) : (s.modImage id f).portS = s.portS := by
  rfl

/-! ### modEng -/

@[simp] theorem State.modEng_pending (f : FlashEngine → FlashEngine) : (s.modEng f).pending = s.pending := by
  rfl
@[simp] theorem State.modEng_now (f : FlashEngine → FlashEngine) : (s.modEng f).now = s.now := by
  rfl
@[simp] theorem State.modEng_time (f : FlashEngine → FlashEngine) : (s.modEng f).time = s.time := by
  rfl
@[simp] theorem State.modEng_guardTime (f : FlashEngine → FlashEngine) : (s.modEng f).guardTime = s.guardTime := by
  rfl
@[simp] theorem State.modEng_veh (f : FlashEngine → FlashEngine) : (s.modEng f).veh = s.veh := by
  rfl
@[simp] theorem State.modEng_startup (f : FlashEngine → FlashEngine) : (s.modEng f).startup = s.startup := by
  rfl
@[simp] theorem State.modEng_roster (f : FlashEngine → FlashEngine) : (s.modEng f).roster = s.roster := by
  rfl
@[simp] theorem State.modEng_heldSerials (f : FlashEngine → FlashEngine) : (s.modEng f).heldSerials = s.heldSerials := by
  rfl
@[simp] theorem State.modEng_profiles (f : FlashEngine → FlashEngine) : (s.modEng f).profiles = s.profiles := by
  rfl
@[simp] theorem State.modEng_rules (f : FlashEngine → FlashEngine) : (s.modEng f).rules = s.rules := by
  rfl
@[simp] theorem State.modEng_yardPins (f : FlashEngine → FlashEngine) : (s.modEng f).yardPins = s.yardPins := by
  rfl
@[simp] theorem State.modEng_servicePins (f : FlashEngine → FlashEngine) : (s.modEng f).servicePins = s.servicePins := by
  rfl
@[simp] theorem State.modEng_jobs (f : FlashEngine → FlashEngine) : (s.modEng f).jobs = s.jobs := by
  rfl
@[simp] theorem State.modEng_lineA (f : FlashEngine → FlashEngine) : (s.modEng f).lineA = s.lineA := by
  rfl
@[simp] theorem State.modEng_lineB (f : FlashEngine → FlashEngine) : (s.modEng f).lineB = s.lineB := by
  rfl
@[simp] theorem State.modEng_store (f : FlashEngine → FlashEngine) : (s.modEng f).store = s.store := by
  rfl
@[simp] theorem State.modEng_flash (f : FlashEngine → FlashEngine) : (s.modEng f).flash = s.flash := by
  rfl
@[simp] theorem State.modEng_flashUse (f : FlashEngine → FlashEngine) : (s.modEng f).flashUse = s.flashUse := by
  rfl
@[simp] theorem State.modEng_settings (f : FlashEngine → FlashEngine) : (s.modEng f).settings = s.settings := by
  rfl
@[simp] theorem State.modEng_portY (f : FlashEngine → FlashEngine) : (s.modEng f).portY = s.portY := by
  rfl
@[simp] theorem State.modEng_portV (f : FlashEngine → FlashEngine) : (s.modEng f).portV = s.portV := by
  rfl
@[simp] theorem State.modEng_portS (f : FlashEngine → FlashEngine) : (s.modEng f).portS = s.portS := by
  rfl

/-! ### Reading back -/

theorem State.setEntry_same {i : Nat} (h : i < s.roster.length) (e : Option Entry) : (s.setEntry i e).entry i = e := by
  simp [State.setEntry, State.entry, h]
theorem State.setEntry_other {i k : Nat} (h : k ≠ i) (e : Option Entry) : (s.setEntry i e).entry k = s.entry k := by
  simp [State.setEntry, State.entry, Ne.symm h]
theorem State.setJob_same {t : Nat} (h : t < s.jobs.length) (j : Option Job) : (s.setJob t j).job t = j := by
  simp [State.setJob, State.job, h]
theorem State.setJob_other {t u : Nat} (h : u ≠ t) (j : Option Job) : (s.setJob t j).job u = s.job u := by
  simp [State.setJob, State.job, Ne.symm h]
/-- An occupied slot exists. -/
theorem State.entry_lt {i : Nat} {e : Entry} (h : s.entry i = some e) : i < s.roster.length := by
  by_contra hn
  simp [State.entry, List.getElem?_eq_none (not_lt.mp hn)] at h
/-- A tag in use exists. -/
theorem State.job_lt {t : Nat} {j : Job} (h : s.job t = some j) : t < s.jobs.length := by
  by_contra hn
  simp [State.job, List.getElem?_eq_none (not_lt.mp hn)] at h
theorem State.modEntry_same {i : Nat} {e : Entry} (h : s.entry i = some e) (f : Entry → Entry) :
    (s.modEntry i f).entry i = some (f e) := by
  simp [State.modEntry, h, State.setEntry_same s (State.entry_lt s h)]
theorem State.modEntry_other {i k : Nat} (h : k ≠ i) (f : Entry → Entry) : (s.modEntry i f).entry k = s.entry k := by
  unfold State.modEntry; split
  · rfl
  · exact State.setEntry_other s h _
theorem State.modJob_same {t : Nat} {j : Job} (h : s.job t = some j) (f : Job → Job) :
    (s.modJob t f).job t = some (f j) := by
  simp [State.modJob, h, State.setJob_same s (State.job_lt s h)]
theorem State.modJob_other {t u : Nat} (h : u ≠ t) (f : Job → Job) : (s.modJob t f).job u = s.job u := by
  unfold State.modJob; split
  · rfl
  · exact State.setJob_other s h _
@[simp] theorem State.setEntry_length (i : Nat) (e : Option Entry) : (s.setEntry i e).roster.length = s.roster.length := by
  simp [State.setEntry]
@[simp] theorem State.modEntry_length (i : Nat) (f : Entry → Entry) : (s.modEntry i f).roster.length = s.roster.length := by
  unfold State.modEntry; split <;> simp
@[simp] theorem State.setJob_length (t : Nat) (j : Option Job) : (s.setJob t j).jobs.length = s.jobs.length := by
  simp [State.setJob]
@[simp] theorem State.modJob_length (t : Nat) (f : Job → Job) : (s.modJob t f).jobs.length = s.jobs.length := by
  unfold State.modJob; split <;> simp
@[simp] theorem State.modStore_store (f : Store → Store) : (s.modStore f).store = f s.store := rfl
@[simp] theorem State.modEng_eng (f : FlashEngine → FlashEngine) : (s.modEng f).eng = f s.eng := rfl

/-! ### modFlash -/

@[simp] theorem State.modFlash_pending (f : List Host.Cell → List Host.Cell) : (s.modFlash f).pending = s.pending := rfl
@[simp] theorem State.modFlash_now (f : List Host.Cell → List Host.Cell) : (s.modFlash f).now = s.now := rfl
@[simp] theorem State.modFlash_time (f : List Host.Cell → List Host.Cell) : (s.modFlash f).time = s.time := rfl
@[simp] theorem State.modFlash_guardTime (f : List Host.Cell → List Host.Cell) : (s.modFlash f).guardTime = s.guardTime := rfl
@[simp] theorem State.modFlash_veh (f : List Host.Cell → List Host.Cell) : (s.modFlash f).veh = s.veh := rfl
@[simp] theorem State.modFlash_startup (f : List Host.Cell → List Host.Cell) : (s.modFlash f).startup = s.startup := rfl
@[simp] theorem State.modFlash_roster (f : List Host.Cell → List Host.Cell) : (s.modFlash f).roster = s.roster := rfl
@[simp] theorem State.modFlash_heldSerials (f : List Host.Cell → List Host.Cell) : (s.modFlash f).heldSerials = s.heldSerials := rfl
@[simp] theorem State.modFlash_profiles (f : List Host.Cell → List Host.Cell) : (s.modFlash f).profiles = s.profiles := rfl
@[simp] theorem State.modFlash_rules (f : List Host.Cell → List Host.Cell) : (s.modFlash f).rules = s.rules := rfl
@[simp] theorem State.modFlash_yardPins (f : List Host.Cell → List Host.Cell) : (s.modFlash f).yardPins = s.yardPins := rfl
@[simp] theorem State.modFlash_servicePins (f : List Host.Cell → List Host.Cell) : (s.modFlash f).servicePins = s.servicePins := rfl
@[simp] theorem State.modFlash_jobs (f : List Host.Cell → List Host.Cell) : (s.modFlash f).jobs = s.jobs := rfl
@[simp] theorem State.modFlash_lineA (f : List Host.Cell → List Host.Cell) : (s.modFlash f).lineA = s.lineA := rfl
@[simp] theorem State.modFlash_lineB (f : List Host.Cell → List Host.Cell) : (s.modFlash f).lineB = s.lineB := rfl
@[simp] theorem State.modFlash_store (f : List Host.Cell → List Host.Cell) : (s.modFlash f).store = s.store := rfl
@[simp] theorem State.modFlash_eng (f : List Host.Cell → List Host.Cell) : (s.modFlash f).eng = s.eng := rfl
@[simp] theorem State.modFlash_flashUse (f : List Host.Cell → List Host.Cell) : (s.modFlash f).flashUse = s.flashUse := rfl
@[simp] theorem State.modFlash_settings (f : List Host.Cell → List Host.Cell) : (s.modFlash f).settings = s.settings := rfl
@[simp] theorem State.modFlash_portY (f : List Host.Cell → List Host.Cell) : (s.modFlash f).portY = s.portY := rfl
@[simp] theorem State.modFlash_portV (f : List Host.Cell → List Host.Cell) : (s.modFlash f).portV = s.portV := rfl
@[simp] theorem State.modFlash_portS (f : List Host.Cell → List Host.Cell) : (s.modFlash f).portS = s.portS := rfl
@[simp] theorem State.modFlash_flash (f : List Host.Cell → List Host.Cell) : (s.modFlash f).flash = f s.flash := rfl

end Sys2Proof.Machine
end

