-- ==== Sys2Proof/Laws/Settle.lean ====
section
/-!
SUPPORT. What can settle: each operation of resolution, of job handling, of the arbiters' choices and of the end of a
step answers a state that its argument may settle into (`Settled`). Later proofs cite these and unfold none of them.
-/

namespace Sys2Proof.Machine

open Sys2Proof

/-! ### The relations are preorders -/

theorem EntrySettled.refl (e : Entry) : EntrySettled e e :=
  ⟨rfl, .inl rfl, fun _ => ⟨rfl, rfl⟩, .inl rfl⟩

theorem EntrySettled.trans {e f g : Entry} (h : EntrySettled e f) (k : EntrySettled f g) : EntrySettled e g where
  frame := by rw [k.frame, h.frame]
  state := by
    rcases h.state with h1 | ⟨h1, h2⟩ <;> rcases k.state with k1 | ⟨k1, k2⟩
    · exact .inl (k1.trans h1)
    · exact .inr ⟨h1 ▸ k1, k2⟩
    · exact .inr ⟨h1, k1 ▸ h2⟩
    · exact .inr ⟨h1, k2⟩
  target hr := by
    have hs : f.state = e.state := by
      rcases h.state with h1 | ⟨h1, _⟩
      · exact h1
      · simp [hr] at h1
    have k1 := k.target (hs ▸ hr)
    have h1 := h.target hr
    exact ⟨k1.1.trans h1.1, k1.2.trans h1.2⟩
  refused := by
    rcases k.refused with k1 | k1
    · rw [k1]; exact h.refused
    · exact .inr k1

theorem SlotSettled.refl : ∀ o : Option Entry, SlotSettled o o
  | none => trivial
  | some e => EntrySettled.refl e

theorem SlotSettled.trans : ∀ {a b c : Option Entry}, SlotSettled a b → SlotSettled b c → SlotSettled a c
  | none, none, none, _, _ => trivial
  | some _, some _, some _, h, k => EntrySettled.trans h k
  | none, some _, _, h, _ => h.elim
  | some _, none, _, h, _ => h.elim
  | none, none, some _, _, k => k.elim
  | some _, some _, none, _, k => k.elim

theorem roster_refl (r : List (Option Entry)) : List.Forall₂ SlotSettled r r :=
  List.forall₂_same.2 fun o _ => SlotSettled.refl o

theorem roster_trans {a b c : List (Option Entry)} (h : List.Forall₂ SlotSettled a b)
    (k : List.Forall₂ SlotSettled b c) : List.Forall₂ SlotSettled a c := by
  induction h generalizing c with
  | nil => cases k; exact .nil
  | cons h _ ih => cases k with | cons k ks => exact .cons (h.trans k) (ih ks)

theorem LineSettled.refl (e : LineEngine) : LineSettled e e :=
  ⟨rfl, rfl, rfl, rfl, rfl, rfl, rfl, rfl, fun _ h _ => h⟩

theorem LineSettled.trans {e f g : LineEngine} (h : LineSettled e f) (k : LineSettled f g) : LineSettled e g where
  settings := k.settings.trans h.settings
  state := k.state.trans h.state
  run := k.run.trans h.run
  charges := k.charges.trans h.charges
  fullDue := k.fullDue.trans h.fullDue
  startSweep := k.startSweep.trans h.startSweep
  recoveryTimer := k.recoveryTimer.trans h.recoveryTimer
  stats := by rw [k.stats, h.stats]
  full w hw hk := k.full w (h.full w hw hk) hk

theorem PortSettled.refl (p : PortState) : PortSettled p p :=
  ⟨rfl, rfl, fun _ _ _ _ => rfl, fun _ f h k => ⟨f, h, k⟩, .inl rfl⟩

theorem PortSettled.trans {p q r : PortState} (h : PortSettled p q) (k : PortSettled q r) : PortSettled p r where
  frame := by rw [k.frame, h.frame]
  length := k.length.trans h.length
  others i a b c := (k.others i a b c).trans (h.others i a b c)
  kept i f hf hs := by
    obtain ⟨g, hg, hs'⟩ := h.kept i f hf hs
    exact k.kept i g hg hs'
  slot := by
    rcases k.slot with k1 | ⟨k1, a, b, k2⟩
    · rw [k1]; exact h.slot
    · rcases h.slot with h1 | ⟨h1, _⟩
      · exact .inr ⟨k1, a, b, h1 ▸ k2⟩
      · rw [h1] at k2; cases k2

theorem StoreSettled.refl (a : Store) : StoreSettled a a where
  free := rfl
  dirty := List.prefix_refl _
  bad := List.prefix_refl _
  ids := List.Sublist.refl _
  from_ r h := ⟨r, h, rfl⟩
  kept _ q h _ := ⟨q.jobCount, h⟩

theorem StoreSettled.trans {a b c : Store} (h : StoreSettled a b) (k : StoreSettled b c) : StoreSettled a c where
  free := k.free.trans h.free
  dirty := h.dirty.trans k.dirty
  bad := h.bad.trans k.bad
  ids := k.ids.trans h.ids
  from_ r hr := by
    obtain ⟨q, hq, e⟩ := k.from_ r hr
    obtain ⟨p, hp, e'⟩ := h.from_ q hq
    exact ⟨p, hp, by rw [e, e']⟩
  kept hn q hq hs := by
    obtain ⟨n, hn'⟩ := h.kept hn q hq hs
    obtain ⟨m, hm⟩ := k.kept (h.ids.nodup hn) _ hn' hs
    exact ⟨m, hm⟩

theorem Settled.refl (s : State) : Settled s s where
  pending := rfl
  now := rfl
  time := rfl
  guardTime := rfl
  veh := rfl
  startup := .inl rfl
  roster := roster_refl _
  heldSerials := rfl
  profiles := rfl
  rules := rfl
  yardPins := rfl
  servicePins := rfl
  jobs := rfl
  lineA := .refl _
  lineB := .refl _
  store := .refl _
  hold := rfl
  flash := rfl
  flashUse := rfl
  settings := rfl
  portY := .refl _
  portV := .refl _
  portS := .refl _

theorem Settled.trans {s t u : State} (h : Settled s t) (k : Settled t u) : Settled s u where
  pending := k.pending.trans h.pending
  now := k.now.trans h.now
  time := k.time.trans h.time
  guardTime := k.guardTime.trans h.guardTime
  veh := k.veh.trans h.veh
  startup := by
    rcases h.startup with h1 | ⟨h1, h2⟩ <;> rcases k.startup with k1 | ⟨k1, k2⟩
    · exact .inl (k1.trans h1)
    · exact .inr ⟨h1 ▸ k1, by rw [k2, h1]⟩
    · exact .inr ⟨h1, k1.trans h2⟩
    · rw [h2] at k1; cases k1
  roster := roster_trans h.roster k.roster
  heldSerials := k.heldSerials.trans h.heldSerials
  profiles := k.profiles.trans h.profiles
  rules := k.rules.trans h.rules
  yardPins := k.yardPins.trans h.yardPins
  servicePins := k.servicePins.trans h.servicePins
  jobs := k.jobs.trans h.jobs
  lineA := h.lineA.trans k.lineA
  lineB := h.lineB.trans k.lineB
  store := h.store.trans k.store
  hold := k.hold.trans h.hold
  flash := k.flash.trans h.flash
  flashUse := k.flashUse.trans h.flashUse
  settings := k.settings.trans h.settings
  portY := h.portY.trans k.portY
  portV := h.portV.trans k.portV
  portS := h.portS.trans k.portS

/-- `Settled.trans` with the later step first, as an operation's text names it. -/
theorem Settled.after {s t u : State} (k : Settled t u) (h : Settled s t) : Settled s u := h.trans k

/-- A line engine whose kept fields are the same. -/
theorem LineSettled.same {e f : LineEngine} (settings : f.settings = e.settings) (state : f.state = e.state)
    (run : f.run = e.run) (charges : f.charges = e.charges) (fullDue : f.fullDue = e.fullDue)
    (startSweep : f.startSweep = e.startSweep) (recoveryTimer : f.recoveryTimer = e.recoveryTimer)
    (stats : f.stats = { e.stats with framesSent := f.stats.framesSent }) (sweep : f.sweep = e.sweep) :
    LineSettled e f :=
  ⟨settings, state, run, charges, fullDue, startSweep, recoveryTimer, stats, fun _ h _ => sweep ▸ h⟩

theorem Settled.foldl {α : Type} {f : State → α → State} (h : ∀ s a, Settled s (f s a)) (xs : List α) (s : State) :
    Settled s (xs.foldl f s) := by
  induction xs generalizing s with
  | nil => exact .refl s
  | cons a xs ih => exact (h s a).trans (ih _)

theorem Settled.iterate {f : State → State} (h : ∀ s, Settled s (f s)) : ∀ (n : Nat) (s : State),
    Settled s (Nat.repeat f n s)
  | 0, s => .refl s
  | n + 1, s => (Settled.iterate h n s).trans (h _)

variable (s : State)

/-! ### The basic updates -/

theorem modLine_settled (l : Line) {f : LineEngine → LineEngine} (h : ∀ e, LineSettled e (f e)) :
    Settled s (s.modLine l f) := by
  cases l
  · exact { Settled.refl s with lineA := h _ }
  · exact { Settled.refl s with lineB := h _ }

theorem modEng_settled {f : FlashEngine → FlashEngine} (h : ∀ e, (f e).hold = e.hold) : Settled s (s.modEng f) :=
  { Settled.refl s with hold := h _ }

theorem setJob_settled (t : Nat) (j : Option Job) : Settled s (s.setJob t j) :=
  { Settled.refl s with jobs := by simp [State.setJob] }

theorem modJob_settled (t : Nat) (f : Job → Job) : Settled s (s.modJob t f) := by
  unfold State.modJob
  split
  · exact .refl s
  · exact setJob_settled s t _

theorem forall₂_set {a b : List (Option Entry)} (h : List.Forall₂ SlotSettled a b) {i : Nat} {x y : Option Entry}
    (k : SlotSettled x y) : List.Forall₂ SlotSettled (a.set i x) (b.set i y) := by
  induction h generalizing i with
  | nil => exact .nil
  | cons h hs ih =>
    cases i with
    | zero => exact .cons k hs
    | succ i => exact .cons h ih

theorem roster_set_self {i : Nat} {e : Entry} (h : s.entry i = some e) : s.roster.set i (some e) = s.roster := by
  apply List.ext_getElem? ; intro k
  by_cases hk : k = i
  · subst hk
    rw [List.getElem?_set]
    unfold State.entry at h
    cases hr : s.roster[k]? with
    | none => rw [hr] at h; cases h
    | some o =>
      rw [hr] at h
      have hlt : k < s.roster.length := (List.getElem?_eq_some_iff.1 hr).1
      simp only [if_true, hlt]
      simp at h
      rw [h]
  · rw [List.getElem?_set]; simp [Ne.symm hk]

theorem setEntry_settled {i : Nat} {e f : Entry} (h : s.entry i = some e) (k : EntrySettled e f) :
    Settled s (s.setEntry i (some f)) :=
  { Settled.refl s with
    roster := by
      have := forall₂_set (roster_refl s.roster) (i := i) (x := some e) (y := some f) k
      rwa [roster_set_self s h] at this }

theorem modEntry_settled (i : Nat) {f : Entry → Entry} (k : ∀ e, EntrySettled e (f e)) : Settled s (s.modEntry i f) := by
  unfold State.modEntry
  split
  · exact .refl s
  · exact setEntry_settled s ‹_› (k _)

/-- Changing job counts alone. -/
theorem modImage_settled (id : Nat) (g : Nat → Nat) :
    Settled s (s.modImage id fun r => { r with jobCount := g r.jobCount }) :=
  { Settled.refl s with
    store :=
      { StoreSettled.refl s.store with
        ids := by
          simp only [State.modImage, State.modStore, List.map_map]
          rw [show (Image.id ∘ fun r : Image => if (r.id == id) = true then { r with jobCount := g r.jobCount } else r)
            = Image.id from funext fun r => by simp only [Function.comp]; split <;> rfl]
        from_ := by
          intro r hr
          simp only [State.modImage, State.modStore, List.mem_map] at hr
          obtain ⟨q, hq, rfl⟩ := hr
          refine ⟨q, hq, ?_⟩
          split <;> rfl
        kept := by
          intro _ q hq _
          simp only [State.modImage, State.modStore, List.mem_map]
          by_cases h : (q.id == id) = true
          · exact ⟨g q.jobCount, q, hq, by rw [if_pos h]⟩
          · exact ⟨q.jobCount, q, hq, by rw [if_neg h]⟩ } }

/-! ### Ports -/

theorem posted_settled (p : PortState) {e : Event} (h : e.index = 0 ∨ e.index = 5 ∨ e.index = 13) :
    PortSettled p (p.posted e) where
  frame := rfl
  length := by simp [PortState.posted]
  others i a b c := by
    have hi : e.index ≠ i := by rcases h with h | h | h <;> omega
    simp [PortState.posted, hi]
  kept i f hf hs := by
    by_cases hi : e.index = i
    · exact ⟨f.posted e, by simp [PortState.posted, hi, hf], rfl⟩
    · exact ⟨f, by simp [PortState.posted, hi, hf], hs⟩
  slot := .inl rfl

theorem modPort_settled (p : Port) {f : PortState → PortState} (h : PortSettled (s.port p) (f (s.port p))) :
    Settled s (s.modPort p f) := by
  cases p
  · exact { Settled.refl s with portY := h }
  · exact { Settled.refl s with portV := h }
  · exact { Settled.refl s with portS := h }

theorem postTo_settled (p : Port) {e : Event} (h : e.index = 0 ∨ e.index = 5 ∨ e.index = 13) :
    Settled s (s.postTo p e) :=
  modPort_settled s p (posted_settled _ h)

theorem post_settled {e : Event} (h : e.index = 0 ∨ e.index = 5 ∨ e.index = 13) : Settled s (s.post e) :=
  ((postTo_settled s .Y h).trans (postTo_settled _ .V h)).trans (postTo_settled _ .S h)

/-! ### Lines -/

theorem wake_settled (l : Line) : Settled s (s.wake l) :=
  modLine_settled s l fun _ => .same rfl rfl rfl rfl rfl rfl rfl rfl rfl

theorem wakeBoth_settled : Settled s s.wakeBoth := (wake_settled s .A).trans (wake_settled _ .B)

theorem dropRead_settled (l : Line) : Settled s (s.dropRead l) :=
  modEng_settled s fun e => by cases l <;> rfl

theorem endExchange_settled (l : Line) : Settled s (s.endExchange l) :=
  modLine_settled s l fun _ => .same rfl rfl rfl rfl rfl rfl rfl rfl rfl

theorem abandon_settled (l : Line) : Settled s (s.abandon l) := by
  unfold State.abandon
  split
  · exact .refl s
  · exact (dropRead_settled _ l).after ((endExchange_settled _ l).after
      (modLine_settled s l fun _ => .same rfl rfl rfl rfl rfl rfl rfl rfl rfl))

theorem abandonIf_settled (l : Line) (c : Exchange → Bool) : Settled s (s.abandonIf l c) := by
  unfold State.abandonIf
  split
  · exact abandon_settled s l
  · exact .refl s

theorem abandonJob_settled (t : Nat) : Settled s (s.abandonJob t) :=
  (abandonIf_settled s .A _).trans (abandonIf_settled _ .B _)

theorem modQueue_settled (e : LineEngine) (prio : Nat) (f : List Nat → List Nat) : LineSettled e (e.modQueue prio f) := by
  unfold LineEngine.modQueue
  split <;> exact .same rfl rfl rfl rfl rfl rfl rfl rfl rfl

theorem queueTail_settled (l : Line) (prio t : Nat) : Settled s (s.queueTail l prio t) := by
  unfold State.queueTail
  refine modLine_settled s l fun e => (modQueue_settled e prio fun q => q ++ [t]).trans ?_
  exact .same rfl rfl rfl rfl rfl rfl rfl rfl rfl

theorem queueHead_settled (l : Line) (prio t : Nat) : Settled s (s.queueHead l prio t) := by
  unfold State.queueHead
  refine modLine_settled s l fun e => (modQueue_settled e prio fun q => t :: q).trans ?_
  exact .same rfl rfl rfl rfl rfl rfl rfl rfl rfl

theorem lineDropTag_settled (e : LineEngine) (t : Nat) : LineSettled e (e.dropTag t) :=
  .same rfl rfl rfl rfl rfl rfl rfl rfl rfl

theorem dropTag_settled (t : Nat) : Settled s (s.dropTag t) :=
  (modLine_settled s .A fun e => lineDropTag_settled e t).trans (modLine_settled _ .B fun e => lineDropTag_settled e t)

theorem startAttempt_settled (l : Line) : Settled s (s.startAttempt l) := by
  unfold State.startAttempt
  split
  · exact .refl s
  · split
    · exact modLine_settled s l fun _ => .same rfl rfl rfl rfl rfl rfl rfl rfl rfl
    · exact modLine_settled s l fun _ => .same rfl rfl rfl rfl rfl rfl rfl rfl rfl

theorem beginExchange_settled (l : Line) (p : Purpose) (a n k : Nat) : Settled s (s.beginExchange l p a n k) := by
  unfold State.beginExchange
  simp only
  split
  · exact modLine_settled s l fun _ => .same rfl rfl rfl rfl rfl rfl rfl rfl rfl
  · exact (startAttempt_settled _ l).after
      (modLine_settled s l fun _ => .same rfl rfl rfl rfl rfl rfl rfl rfl rfl)

theorem requestRead_settled (l : Line) (r : LineRead) : Settled s (s.requestRead l r) :=
  (modEng_settled _ fun e => by cases l <;> rfl).after
    (modLine_settled s l fun _ => .same rfl rfl rfl rfl rfl rfl rfl rfl rfl)

/-! ### Jobs and resolution -/

theorem createJob_settled : Settled s s.createJob := by
  unfold State.createJob
  split
  · split
    · exact .refl s
    · split
      · exact .refl s
      · exact ((setJob_settled s _ _).trans (queueTail_settled _ _ _ _)).trans (modImage_settled _ _ (· + 1))
  · exact .refl s

theorem createJobs_settled : Settled s s.createJobs := Settled.iterate createJob_settled _ s

theorem removeJob_settled (t : Nat) : Settled s (s.removeJob t) := by
  unfold State.removeJob
  split
  · exact .refl s
  · exact (((abandonJob_settled s t).trans (dropTag_settled _ t)).trans (setJob_settled _ t _)).trans
      (modImage_settled _ _ (· - 1))

theorem removeJobOf_settled (i : Nat) : Settled s (s.removeJobOf i) := by
  unfold State.removeJobOf
  split
  · exact .refl s
  · exact removeJob_settled s _

theorem loadingToPending_settled (i n : Nat) : Settled s (s.loadingToPending i n) :=
  modEntry_settled s i fun e => by
    split
    · next h => exact ⟨rfl, .inr ⟨by simp [h.2, UpdateState.resolvable], rfl⟩, fun _ => ⟨rfl, rfl⟩, .inl rfl⟩
    · exact .refl e

/-- Removing a job leaves every entry as it is. -/
@[simp] theorem removeJob_roster (t : Nat) : (s.removeJob t).roster = s.roster := by
  unfold State.removeJob
  split
  · rfl
  · simp only [State.modImage_roster, State.setJob_roster, State.dropTag, State.modLine_roster, State.abandonJob,
      State.abandonIf]
    (repeat' split) <;> simp only [State.abandon] <;> (repeat' split) <;> simp [State.dropRead, State.endExchange]

@[simp] theorem removeJobOf_roster (i : Nat) : (s.removeJobOf i).roster = s.roster := by
  unfold State.removeJobOf
  split
  · rfl
  · simp

@[simp] theorem removeJobOf_entry (i k : Nat) : (s.removeJobOf i).entry k = s.entry k := by
  simp [State.entry]

@[simp] theorem removeJob_entry (t k : Nat) : (s.removeJob t).entry k = s.entry k := by
  simp [State.entry]

theorem retargetJob_settled (l : Line) (t : Nat) (j : Job) (g : Target) : Settled s (s.retargetJob l t j g) := by
  unfold State.retargetJob
  have h := modJob_settled s t fun j => { j with prio := g.prio, noRetry := g.noRetry }
  simp only
  split
  · split
    · exact (h.trans (dropTag_settled _ t)).trans (queueHead_settled _ l _ t)
    · exact (h.trans (dropTag_settled _ t)).trans (queueTail_settled _ l _ t)
  · exact h

theorem stateFor_resolvable (e : Entry) (t : Option Target) : (stateFor e t).resolvable = true := by
  unfold stateFor
  split
  · rfl
  · split
    · rfl
    · split <;> rfl

theorem decided_settled {e : Entry} (h : e.state.resolvable = true) (d : Decision) {u : UpdateState}
    (k : u.resolvable = true) : EntrySettled e (e.decided d u) :=
  ⟨rfl, .inr ⟨h, k⟩, fun n => by simp [h] at n, .inl rfl⟩

theorem enterStaged_settled (i : Nat) (e : Entry) : Settled s (s.enterStaged i e) := by
  unfold State.enterStaged
  split
  · exact .refl s
  · exact (post_settled s (e := .staged i) (.inr (.inl rfl))).trans (wake_settled _ _)

theorem applyDecision_settled {i : Nat} {e : Entry} (h : s.entry i = some e) (k : e.state.resolvable = true)
    (d : Decision) : Settled s (s.applyDecision i e d) := by
  unfold State.applyDecision
  split
  · split
    · exact setEntry_settled s h (decided_settled k d rfl)
    · split
      · exact setEntry_settled s h (decided_settled k d rfl)
      · split
        · exact (setEntry_settled s h (decided_settled k d k)).trans (retargetJob_settled _ _ _ _ _)
        · exact (removeJob_settled s _).trans (setEntry_settled _ (by simpa using h) (decided_settled k d rfl))
  · exact ((removeJobOf_settled s i).trans
      (setEntry_settled _ (by simpa using h) (decided_settled k d rfl))).trans (enterStaged_settled _ i e)
  · exact (removeJobOf_settled s i).trans
      (setEntry_settled _ (by simpa using h) (decided_settled k d (stateFor_resolvable e d.target)))

theorem resolve_settled (i : Nat) : Settled s (s.resolve i) := by
  unfold State.resolve
  split
  · exact .refl s
  · next e he =>
    have owed : EntrySettled e { e with owed := true } := ⟨rfl, .inl rfl, fun _ => ⟨rfl, rfl⟩, .inl rfl⟩
    split
    · exact setEntry_settled s he owed
    · exact setEntry_settled s he owed
    · exact .refl s
    all_goals
      next hs => exact (applyDecision_settled s he (by rw [hs]; rfl) _).trans (createJobs_settled _)

theorem resolveAll_settled : Settled s s.resolveAll := Settled.foldl (fun s i => resolve_settled s i) _ s

theorem afterRemoval_settled (i : Nat) : Settled s (s.afterRemoval i) := by
  unfold State.afterRemoval
  split
  · exact createJobs_settled s
  · split
    · exact resolve_settled s i
    · exact createJobs_settled s

/-! ### Freeing RETIRING records -/

theorem makeDirty_settled (xs : List Nat) : Settled s (s.makeDirty xs) :=
  { Settled.refl s with store := { StoreSettled.refl s.store with dirty := ⟨xs, rfl⟩ } }

theorem makeBad_settled (xs : List Nat) : Settled s (s.makeBad xs) :=
  { Settled.refl s with store := { StoreSettled.refl s.store with bad := ⟨xs, rfl⟩ } }

theorem releaseExtents_settled (r : Image) (o : Option Nat) : Settled s (s.releaseExtents r o) := by
  unfold State.releaseExtents
  split
  · exact makeDirty_settled s _
  · exact (makeBad_settled s _).trans (makeDirty_settled _ _)

@[simp] theorem releaseExtents_images (r : Image) (o : Option Nat) :
    (s.releaseExtents r o).store.images = s.store.images := by
  unfold State.releaseExtents
  split <;> rfl

/-- A record may leave the directory when every record of its id is RETIRING. -/
theorem forget_settled {id : Nat}
    (h : (s.store.images.map Image.id).Nodup → ∀ r, r ∈ s.store.images → r.id = id → r.state = .retiring) :
    Settled s (s.forget id) :=
  { Settled.refl s with
    roster := by
      show List.Forall₂ SlotSettled s.roster (s.roster.map _)
      rw [List.forall₂_map_right_iff]
      refine List.forall₂_same.2 fun o _ => ?_
      cases o with
      | none => trivial
      | some e =>
        show EntrySettled e (if e.refused = some id then { e with refused := none } else e)
        split
        · exact ⟨rfl, .inl rfl, fun _ => ⟨rfl, rfl⟩, .inr rfl⟩
        · exact .refl e
    store :=
      { StoreSettled.refl s.store with
        ids := List.Sublist.map _ List.filter_sublist
        from_ := fun r hr => ⟨r, (List.mem_filter.1 hr).1, rfl⟩
        kept := fun hn q hq hs => ⟨q.jobCount, List.mem_filter.2 ⟨hq, by
          simp only [bne_iff_ne]; exact fun e => hs (h hn q hq e)⟩⟩ } }

theorem nodup_ids_inj {xs : List Image} (h : (xs.map Image.id).Nodup) {q r : Image} (hq : q ∈ xs) (hr : r ∈ xs)
    (e : q.id = r.id) : q = r := List.inj_on_of_nodup_map h hq hr e

theorem freeRetired1_settled : Settled s s.freeRetired1 := by
  unfold State.freeRetired1
  split
  · exact .refl s
  · next r hr =>
    refine (((releaseExtents_settled s r _).trans (forget_settled _ ?_))).trans (resolveAll_settled _)
    intro hn q hq e
    rw [releaseExtents_images] at hn hq
    have hm : r ∈ s.store.images := List.mem_of_find?_eq_some hr
    have hp := List.find?_some hr
    simp only [Bool.and_eq_true, beq_iff_eq] at hp
    rw [nodup_ids_inj hn hq hm e]
    exact hp.1.1

theorem freeRetired_settled : Settled s s.freeRetired := Settled.iterate freeRetired1_settled _ s

/-! ### Sweeps and the start-up phase -/

theorem startRoster_settled (l : Line) (h : ∀ w, (s.line l).sweep = some w → w.kind ≠ .full) :
    Settled s (s.startRoster l) := by
  cases l
  · exact { Settled.refl s with lineA := { LineSettled.refl s.lineA with full := fun w hw hk => absurd hk (h w hw) } }
  · exact { Settled.refl s with lineB := { LineSettled.refl s.lineB with full := fun w hw hk => absurd hk (h w hw) } }

theorem finishRoster_settled (l : Line) (h : ∀ w, (s.line l).sweep = some w → w.kind = .roster) :
    Settled s (s.finishSweep l .roster) := by
  have h1 : Settled s (s.modLine l fun e => { e with sweep := none, startSweep := e.startSweep }) := by
    cases l
    · exact { Settled.refl s with
        lineA := { LineSettled.refl s.lineA with full := fun w hw hk => by rw [h w hw] at hk; cases hk } }
    · exact { Settled.refl s with
        lineB := { LineSettled.refl s.lineB with full := fun w hw hk => by rw [h w hw] at hk; cases hk } }
  unfold State.finishSweep
  simp only [reduceCtorEq, if_false]
  split
  · exact h1.trans (startRoster_settled _ l fun w hw => by simp at hw)
  · exact h1

theorem tidySweep_settled (l : Line) : Settled s (s.tidySweep l) := by
  unfold State.tidySweep
  split
  · exact .refl s
  · next w hw =>
    split
    · exact .refl s
    · next hk =>
      split
      · split
        · exact .refl s
        · cases l
          · exact { Settled.refl s with
              lineA := { LineSettled.refl s.lineA with
                full := fun v hv h => by
                  rw [show s.lineA.sweep = some w from hw] at hv; cases hv; rw [hk] at h; cases h } }
          · exact { Settled.refl s with
              lineB := { LineSettled.refl s.lineB with
                full := fun v hv h => by
                  rw [show s.lineB.sweep = some w from hw] at hv; cases hv; rw [hk] at h; cases h } }
      · exact finishRoster_settled s l fun v hv => by rw [hw] at hv; cases hv; exact hk

theorem sweepDone_settled (p : Port) : Settled s (s.sweepDone p) := by
  unfold State.sweepDone
  split
  · next a b hs =>
    have h : PortSettled (s.port p) { (s.port p).posted (.sweepDone a b) with slot := none } :=
      { posted_settled (s.port p) (e := .sweepDone a b) (.inr (.inr rfl)) with
        slot := .inr ⟨rfl, a, b, hs⟩
        frame := rfl }
    have e : (s.postTo p (.sweepDone a b)).emptySlot p
        = s.modPort p fun q => { q.posted (.sweepDone a b) with slot := none } := by cases p <;> rfl
    rw [e]
    exact modPort_settled s p h
  · exact .refl s

theorem sweepsDone_settled : Settled s s.sweepsDone :=
  ((sweepDone_settled s .Y).trans (sweepDone_settled _ .V)).trans (sweepDone_settled _ .S)

theorem checkStarted_settled : Settled s s.checkStarted := by
  unfold State.checkStarted
  split
  · next h =>
    exact Settled.trans (t := { s with startup := { s.startup with stage := .running } })
      { Settled.refl s with startup := .inr ⟨h.1, rfl⟩ } (post_settled _ (.inl rfl))
  · exact .refl s

/-! ### The line arbiter -/

theorem beginJobExchange_settled (l : Line) (t : Nat) (j : Job) (e : Entry) (p : Purpose) :
    Settled s (s.beginJobExchange l t j e p) :=
  (modJob_settled s t _).trans (beginExchange_settled _ l p _ _ _)

theorem serveActivation_settled (l : Line) (i : Nat) : Settled s (s.serveActivation l i) := by
  unfold State.serveActivation
  split
  · exact .refl s
  · exact beginExchange_settled s l _ _ _ _

theorem serveSweep_settled (l : Line) : Settled s (s.serveSweep l) := by
  unfold State.serveSweep
  split
  · exact .refl s
  · split
    · exact beginExchange_settled s l _ _ _ _
    · split
      · exact .refl s
      · exact beginExchange_settled s l _ _ _ _

theorem servePoll_settled (l : Line) (t : Nat) : Settled s (s.servePoll l t) := by
  unfold State.servePoll
  split
  · exact .refl s
  · exact beginJobExchange_settled s l _ _ _ _

theorem serveSwap_settled (l : Line) (i : Nat) : Settled s (s.serveSwap l i) := by
  unfold State.serveSwap
  split
  · exact .refl s
  · exact beginExchange_settled s l _ _ _ _

theorem serveReady_settled (l : Line) (t : Nat) : Settled s (s.serveReady l t) := by
  unfold State.serveReady
  split
  · exact .refl s
  · next j e img _ =>
    have h := (modJob_settled s t fun j => { j with state := .sending }).trans
      (modLine_settled _ l (f := fun x => { x with ready := x.ready.filter (· != t) }) fun _ =>
        .same rfl rfl rfl rfl rfl rfl rfl rfl rfl)
    simp only
    split
    · exact (h.trans (beginJobExchange_settled _ l _ _ _ _)).trans (requestRead_settled _ l _)
    · exact h.trans (beginJobExchange_settled _ l _ _ _ _)

theorem openJob_settled (l : Line) (t : Nat) (j : Job) (e : Entry) (img : Image) :
    Settled s (s.openJob l t j e img) := by
  unfold State.openJob
  have h := ((dropTag_settled s t).trans
    (modLine_settled _ l (f := fun x => { x with openSet := x.openSet ++ [t] }) fun _ => .same rfl rfl rfl rfl rfl rfl rfl rfl rfl)).trans
    (modJob_settled _ t fun j =>
      { j with state := .starting, deferred := false, everOpened := true, retriesUsed := 0, busyElapsed := 0 })
  simp only
  split
  · exact h.trans (beginJobExchange_settled _ l _ _ _ _)
  · refine (h.trans (modEntry_settled _ j.slot fun x => ?_)).trans (beginJobExchange_settled _ l _ _ _ _)
    split
    · next k => exact ⟨rfl, .inr ⟨by simp [k.1, UpdateState.resolvable], rfl⟩, fun _ => ⟨rfl, rfl⟩, .inl rfl⟩
    · exact .refl x

theorem openScan_settled (l : Line) (ts : List Nat) : Settled s (s.openScan l ts).1 := by
  induction ts generalizing s with
  | nil => exact .refl s
  | cons t ts ih =>
    unfold State.openScan
    split
    · exact ih s
    · split
      · exact openJob_settled s l _ _ _ _
      · exact (modJob_settled s t _).trans (ih _)

theorem openOrSweep_settled (l : Line) (m : Bool) : Settled s (s.openOrSweep l m) := by
  unfold State.openOrSweep
  split
  · simp only
    split
    · exact openScan_settled s l _
    · exact (openScan_settled s l _).trans (serveSweep_settled _ l)
  · exact serveSweep_settled s l

theorem chooseTransfer_settled (l : Line) : Settled s (s.chooseTransfer l) := by
  unfold State.chooseTransfer
  split
  · exact serveSwap_settled s l _
  · split
    · exact serveReady_settled s l _
    · exact openOrSweep_settled s l _

theorem chooseActive_settled (l : Line) : Settled s (s.chooseActive l) := by
  unfold State.chooseActive
  split
  · exact serveActivation_settled s l _
  · split
    · exact serveSweep_settled s l
    · split
      · exact serveSweep_settled s l
      · split
        · exact servePoll_settled s l _
        · exact chooseTransfer_settled s l

theorem chooseFaulted_settled (l : Line) : Settled s (s.chooseFaulted l) := by
  unfold State.chooseFaulted
  split
  · exact (beginExchange_settled _ l _ _ _ _).after
      (modLine_settled s l fun _ => .same rfl rfl rfl rfl rfl rfl rfl rfl rfl)
  · exact .refl s

theorem arbitrate_settled (l : Line) : Settled s (s.arbitrate l) := by
  unfold State.arbitrate
  split
  · have h := modLine_settled s l (f := fun e => { e with wake := false }) fun _ => .same rfl rfl rfl rfl rfl rfl rfl rfl rfl
    simp only
    split
    · exact h
    · split
      · exact h.trans (chooseActive_settled _ l)
      · exact h.trans (chooseFaulted_settled _ l)
      · exact h
  · exact .refl s

/-! ### The end of a step -/

theorem takeUrgent_hold {f g : FlashEngine} (h : f.takeUrgent = some g) : g.hold = f.hold := by
  unfold FlashEngine.takeUrgent at h
  split at h <;> cases h <;> rfl

theorem choose_hold (f : FlashEngine) : f.choose.hold = f.hold := by
  unfold FlashEngine.choose
  split
  · rfl
  · split
    · unfold FlashEngine.maySuspend; split <;> rfl
    · unfold FlashEngine.chooseUnder
      split
      · exact takeUrgent_hold ‹_›
      · split <;> rfl
    · unfold FlashEngine.chooseFree
      split
      · exact takeUrgent_hold ‹_›
      · split <;> rfl

theorem wantErase_settled : Settled s s.wantErase := by
  unfold State.wantErase
  split
  · exact .refl s
  · exact modEng_settled s fun _ => rfl

theorem wantChecks_settled : Settled s s.wantChecks := modEng_settled s fun _ => rfl

theorem wantReload_settled : Settled s s.wantReload := by
  unfold State.wantReload
  split
  · split
    · exact .refl s
    · exact modEng_settled s fun _ => rfl
  · exact .refl s

theorem settleFlash_settled : Settled s s.settleFlash := by
  have h : Settled s s.wantFlash := by
    unfold State.wantFlash
    split
    · exact .refl s
    · exact ((wantErase_settled s).trans (wantChecks_settled _)).trans (wantReload_settled _)
  refine h.trans ?_
  unfold State.settleFlash State.flashChoose
  split
  · exact .refl _
  · exact modEng_settled _ choose_hold

/-- The end of a step changes only what `Settled` allows. -/
theorem settle_settled : Settled s s.settle := by
  unfold State.settle
  exact ((((((((freeRetired_settled s).trans (createJobs_settled _)).trans (tidySweep_settled _ .A)).trans
    (tidySweep_settled _ .B)).trans (sweepsDone_settled _)).trans (checkStarted_settled _)).trans
    (arbitrate_settled _ .A)).trans (arbitrate_settled _ .B)).trans (settleFlash_settled _)

end Sys2Proof.Machine
end

