-- ==== Sys2Proof/Laws/Work.lean ====
section
/-!
SUPPORT. What the work of a step can touch: each operation on lines, entries, jobs and images leaves the queue, the
clock, the vehicle interface, the plan's tables, the flash's contents and the settings of the lines as they are, and
keeps the sizes of the roster, the pool and the flag sets (`Work`). Settling is work (`Settled.work`).
-/

namespace Sys2Proof.Machine

open Sys2Proof

theorem PortWork.refl (p : PortState) : PortWork p p := ⟨rfl, rfl, rfl, rfl⟩

theorem PortWork.trans {p q r : PortState} (h : PortWork p q) (k : PortWork q r) : PortWork p r :=
  ⟨k.seq.trans h.seq, k.order.trans h.order, k.mask.trans h.mask, k.flags.trans h.flags⟩

theorem Work.refl (s : State) : Work s s :=
  ⟨rfl, rfl, rfl, rfl, rfl, rfl, rfl, rfl, rfl, rfl, rfl, rfl, rfl, rfl, rfl, rfl, .refl _, .refl _, .refl _, .refl _⟩

theorem Work.trans {s t u : State} (h : Work s t) (k : Work t u) : Work s u where
  pending := k.pending.trans h.pending
  now := k.now.trans h.now
  time := k.time.trans h.time
  guardTime := k.guardTime.trans h.guardTime
  veh := k.veh.trans h.veh
  profiles := k.profiles.trans h.profiles
  rules := k.rules.trans h.rules
  yardPins := k.yardPins.trans h.yardPins
  servicePins := k.servicePins.trans h.servicePins
  flash := k.flash.trans h.flash
  flashUse := k.flashUse.trans h.flashUse
  hold := k.hold.trans h.hold
  slots := k.slots.trans h.slots
  tags := k.tags.trans h.tags
  settingsA := k.settingsA.trans h.settingsA
  settingsB := k.settingsB.trans h.settingsB
  ids := k.ids.trans h.ids
  portY := h.portY.trans k.portY
  portV := h.portV.trans k.portV
  portS := h.portS.trans k.portS

/-- `Work.trans` with the later operation first. -/
theorem Work.after {s t u : State} (k : Work t u) (h : Work s t) : Work s u := h.trans k

/-- A step that is taken or not. -/
theorem Work.optional {s : State} (t : State) (c : Prop) [Decidable c] {f : State → State} (h : ∀ u, Work u (f u))
    (k : Work s t) : Work s (if c then f t else t) := by
  split
  · exact k.trans (h t)
  · exact k

theorem Work.foldl {α : Type} {f : State → α → State} (h : ∀ s a, Work s (f s a)) (xs : List α) (s : State) :
    Work s (xs.foldl f s) := by
  induction xs generalizing s with
  | nil => exact .refl s
  | cons a xs ih => exact (h s a).trans (ih _)

theorem PortSettled.work {p q : PortState} (h : PortSettled p q) : PortWork p q :=
  ⟨by rw [h.frame], by rw [h.frame], by rw [h.frame], h.length⟩

/-- Settling is work. -/
theorem Settled.work {s t : State} (h : Settled s t) : Work s t where
  pending := h.pending
  now := h.now
  time := h.time
  guardTime := h.guardTime
  veh := h.veh
  profiles := h.profiles
  rules := h.rules
  yardPins := h.yardPins
  servicePins := h.servicePins
  flash := h.flash
  flashUse := h.flashUse
  hold := h.hold
  slots := h.roster.length_eq.symm
  tags := h.jobs
  settingsA := h.lineA.settings
  settingsB := h.lineB.settings
  ids := h.store.ids
  portY := h.portY.work
  portV := h.portV.work
  portS := h.portS.work

variable (s : State)

/-! ### The basic updates -/

theorem modLine_work (l : Line) {f : LineEngine → LineEngine}
    (h : ∀ e, (f e).settings = e.settings := by intro; rfl) :
    Work s (s.modLine l f) := by
  cases l
  · exact { Work.refl s with settingsA := h _ }
  · exact { Work.refl s with settingsB := h _ }

theorem modPort_work (p : Port) {f : PortState → PortState} (h : ∀ q, PortWork q (f q)) : Work s (s.modPort p f) := by
  cases p
  · exact { Work.refl s with portY := h _ }
  · exact { Work.refl s with portV := h _ }
  · exact { Work.refl s with portS := h _ }

theorem modEng_work {f : FlashEngine → FlashEngine} (h : ∀ e, (f e).hold = e.hold := by intro; rfl) : Work s (s.modEng f) :=
  { Work.refl s with hold := h _ }

theorem setEntry_work (i : Nat) (e : Option Entry) : Work s (s.setEntry i e) :=
  { Work.refl s with slots := by simp [State.setEntry] }

theorem modEntry_work (i : Nat) (f : Entry → Entry) : Work s (s.modEntry i f) := by
  unfold State.modEntry
  split
  · exact .refl s
  · exact setEntry_work s i _

theorem setJob_work (t : Nat) (j : Option Job) : Work s (s.setJob t j) := (setJob_settled s t j).work

theorem modJob_work (t : Nat) (f : Job → Job) : Work s (s.modJob t f) := (modJob_settled s t f).work

theorem modStore_work {f : Store → Store} (h : ((f s.store).images.map Image.id).Sublist (s.store.images.map Image.id)) :
    Work s (s.modStore f) :=
  { Work.refl s with ids := h }

/-- Changing a record in any way but its id. -/
theorem modImage_work (id : Nat) {f : Image → Image} (h : ∀ r, (f r).id = r.id := by intro; rfl) : Work s (s.modImage id f) :=
  modStore_work s (by
    simp only [List.map_map]
    rw [show (Image.id ∘ fun r => if (r.id == id) = true then f r else r) = Image.id from funext fun r => by
      simp only [Function.comp]; split
      · exact h r
      · rfl])

theorem posted_work (q : PortState) (e : Event) : PortWork q (q.posted e) :=
  ⟨rfl, rfl, rfl, by simp [PortState.posted]⟩

theorem postTo_work (p : Port) (e : Event) : Work s (s.postTo p e) := modPort_work s p fun q => posted_work q e

theorem post_work (e : Event) : Work s (s.post e) :=
  ((postTo_work s .Y e).trans (postTo_work _ .V e)).trans (postTo_work _ .S e)

theorem placed_work (q : PortState) (p : Port) (r : Reply) : PortWork q (q.placed p r) := by
  unfold PortState.placed
  split
  · split <;> exact ⟨rfl, rfl, rfl, rfl⟩
  · exact ⟨rfl, rfl, rfl, rfl⟩
  · exact ⟨rfl, rfl, rfl, rfl⟩

theorem answer_work (p : Port) (st : Status) (d : ReplyData) : Work s (s.answer p st d) :=
  modPort_work s p fun q => placed_work q p _

theorem finish_work (t : Ticket) (st : Status) (d : ReplyData) : Work s (s.finish t st d) := by
  unfold State.finish
  split
  · exact answer_work s _ _ _
  · exact .refl s

theorem finishAll_work (ts : List Ticket) (st : Status) : Work s (s.finishAll ts st) :=
  Work.foldl (fun s t => finish_work s t st .empty) ts s

theorem emptySlot_work (p : Port) : Work s (s.emptySlot p) := modPort_work s p fun _ => ⟨rfl, rfl, rfl, rfl⟩

/-! ### Lines -/

theorem modStats_work (l : Line) (f : Stats → Stats) : Work s (s.modStats l f) := modLine_work s l

theorem endCover_work (q : PortState) (l : Line) (o : SweepOutcome) : PortWork q (q.endCover l o) := ⟨rfl, rfl, rfl, rfl⟩

theorem endCovers_work (l : Line) (o : SweepOutcome) : Work s (s.endCovers l o) :=
  ((modPort_work s .Y fun q => endCover_work q l o).trans (modPort_work _ .V fun q => endCover_work q l o)).trans
    (modPort_work _ .S fun q => endCover_work q l o)

theorem startRoster_work (l : Line) : Work s (s.startRoster l) := by
  unfold State.startRoster
  exact modLine_work s l

theorem startFull_work (l : Line) : Work s (s.startFull l) := modLine_work s l

theorem finishSweep_work (l : Line) (k : SweepKind) : Work s (s.finishSweep l k) :=
  .optional _ _ (fun u => startRoster_work u l)
    (.optional _ _ (fun u => endCovers_work u l .complete) (modLine_work s l))

theorem cutSweep_work (l : Line) : Work s (s.cutSweep l) :=
  (endCovers_work _ l .cut).after (modLine_work s l)

theorem afterProbe_work (l : Line) (x : Exchange) : Work s (s.afterProbe l x) := by
  unfold State.afterProbe
  split
  · exact .refl s
  · split
    · split
      · exact modLine_work s l
      · exact finishSweep_work s l _
    · exact .refl s

theorem parkJob_work (t : Nat) : Work s (s.parkJob t) := by
  unfold State.parkJob
  split
  · exact .refl s
  · exact (((abandonJob_settled s t).trans (dropTag_settled _ t)).trans
      ((setJob_settled _ t _).trans (queueHead_settled _ _ _ t))).work

theorem parkAll_work (ts : List Nat) : Work s (s.parkAll ts) := Work.foldl parkJob_work ts s

theorem parkLine_work (l : Line) : Work s (s.parkLine l) := parkAll_work s _

theorem faultLine_work (l : Line) : Work s (s.faultLine l) :=
  (post_work _ _).after ((cutSweep_work _ l).after ((parkLine_work _ l).after (modLine_work s l)))

theorem lineFailure_work (l : Line) (c : Option Charge) : Work s (s.lineFailure l c) := by
  unfold State.lineFailure
  split
  · split
    · exact modLine_work s l
    · exact faultLine_work s l
  · exact .refl s

theorem recoverLine_work (l : Line) : Work s (s.recoverLine l) := (post_work _ _).after (modLine_work s l)

/-! ### Held units and charges -/

theorem joinHeld_work (n : Nat) : Work s (s.joinHeld n) := by
  unfold State.joinHeld
  split
  · exact .refl s
  · exact { Work.refl s with }

theorem becomeHeld_work (i : Nat) (b : Bool) : Work s (s.becomeHeld i b) := by
  unfold State.becomeHeld
  split
  · exact .refl s
  · next e _ =>
    have h := (((removeJobOf_settled s i).work.trans (setEntry_work _ i (some e.asHeld))).trans
      (createJobs_settled _).work).trans (post_work _ (.unitHeld i))
    simp only
    split
    · exact h.trans (joinHeld_work _ _)
    · exact h

theorem chargeSlot_work (i : Nat) : Work s (s.chargeSlot i) := by
  unfold State.chargeSlot
  split
  · exact .refl s
  · split
    · exact .refl s
    · split
      · exact becomeHeld_work s i _
      · exact setEntry_work s i _

theorem charge_work (c : Charge) : Work s (s.charge c) := by
  unfold State.charge
  split
  · exact chargeSlot_work s _
  · exact .refl s

theorem lineSuccess_work (l : Line) : Work s (s.lineSuccess l) := by
  unfold State.lineSuccess
  split
  · exact (Work.foldl charge_work _ _).after (modLine_work s l)
  · exact .refl s

theorem becomeAbsent_work (i : Nat) : Work s (s.becomeAbsent i) := by
  unfold State.becomeAbsent
  split
  · exact .refl s
  · exact (afterRemoval_settled _ i).work.after ((post_work _ _).after
      ((loadingToPending_settled _ i _).work.after (removeJobOf_settled s i).work))

theorem missProbe_work (i : Nat) : Work s (s.missProbe i) := by
  unfold State.missProbe
  split
  · exact .refl s
  · split
    · exact .refl s
    · simp only
      split
      · exact (becomeAbsent_work _ i).after (setEntry_work s i _)
      · exact setEntry_work s i _

/-! ### Activations -/

theorem startActivation_work (i n : Nat) : Work s (s.startActivation i n) := by
  unfold State.startActivation
  split
  · exact .refl s
  · split
    · exact setEntry_work s i _
    · exact .refl s

theorem queueRevert_work (i : Nat) (e : Entry) : Work s (s.queueRevert i e) :=
  (wake_settled _ _).work.after (setEntry_work s i _)

theorem endActivation_work (i : Nat) (e : Entry) (o : InstallOutcome) (f : FailEffect) (ev : Event) :
    Work s (s.endActivation i e o f ev) := by
  unfold State.endActivation
  have h : Work s ((s.setEntry i (some (e.recordHistory s.time.depotTime o))).failEffect i f) := by
    refine (setEntry_work s i (some (e.recordHistory s.time.depotTime o))).trans ?_
    cases f
    · exact modEntry_work _ i _
    · exact chargeSlot_work _ i
    · exact .refl _
  simp only
  split
  · exact h.trans (post_work _ ev)
  · exact (resolve_settled _ i).work.after ((post_work _ ev).after ((modEntry_work _ i _).after h))

theorem endLost_work (i : Nat) (e : Entry) : Work s (s.endLost i e) :=
  (becomeHeld_work _ i true).after (setEntry_work s i _)

theorem firstExpiry_work (i : Nat) (e : Entry) : Work s (s.firstExpiry i e) := by
  unfold State.firstExpiry
  split
  · exact endLost_work s i e
  · exact setEntry_work s i _

theorem bootFault_work (i : Nat) (e : Entry) : Work s (s.bootFault i e) :=
  (chargeSlot_work _ i).after (queueRevert_work s i _)

theorem judge_work (i : Nat) : Work s (s.judge i) := by
  unfold State.judge
  split
  · exact .refl s
  · split
    · split
      · split
        · exact bootFault_work s i _
        · exact endActivation_work s i _ _ _ _
      · exact endActivation_work s i _ _ _ _
    · split
      · split
        · exact endActivation_work s i _ _ _ _
        · split
          · exact queueRevert_work s i _
          · exact .refl s
      · exact endActivation_work s i _ _ _ _
    · exact .refl s

theorem nextProbe_work (i : Nat) : Work s (s.nextProbe i) := modEntry_work s i _

theorem revertEnded_work (i : Nat) (b : Bool) : Work s (s.revertEnded i b) :=
  (nextProbe_work _ i).after (modEntry_work s i _)

/-! ### The roster -/

theorem abandonEntry_work (i : Nat) (e : Entry) : Work s (s.abandonEntry i e) := (abandonIf_settled s _ _).work

theorem learn_work (i : Nat) (l : Line) (a : Nat) (x : Ident) : Work s (s.learn i l a x) :=
  (post_work _ _).after ((resolve_settled _ i).work.after (setEntry_work s i _))

theorem evict_work (i : Nat) (b : Bool) : Work s (s.evict i b) := by
  unfold State.evict
  split
  · exact .refl s
  · next e _ =>
    have h := (createJobs_settled _).work.after ((setEntry_work _ i none).after
      ((abandonEntry_work _ i e).after (removeJobOf_settled s i).work))
    simp only
    split
    · exact h.trans (post_work _ _)
    · exact h

theorem rosterFull_work (l : Line) (a : Nat) : Work s (s.rosterFull l a) := by
  unfold State.rosterFull
  split
  · exact .refl s
  · exact (post_work _ _).after (modLine_work s l)

theorem newUnit_work (l : Line) (a : Nat) (x : Ident) : Work s (s.newUnit l a x) := by
  unfold State.newUnit
  split
  · exact learn_work s _ l a x
  · split
    · exact (evict_work s _ _).trans (learn_work _ _ l a x)
    · exact rosterFull_work s l a

theorem recordIdent_work (i : Nat) (e : Entry) (x : Ident) : Work s (s.recordIdent i e x) := by
  unfold State.recordIdent
  exact .optional _ _ (fun u => judge_work u i)
    (.optional _ _ (fun u => (resolve_settled u i).work)
      (.optional _ _ (fun u => post_work u _)
        (.optional _ _ (fun u => post_work u _) (setEntry_work s i _))))

theorem handleIdent_work (l : Line) (a : Nat) (b : Bool) (x : Ident) : Work s (s.handleIdent l a b x) := by
  unfold State.handleIdent
  split
  · split
    · exact newUnit_work s l a x
    · exact .refl s
  · split
    · exact .refl s
    · split
      · exact recordIdent_work s _ _ x
      · exact (evict_work s _ _).trans (learn_work _ _ l a x)

/-! ### Outcomes of exchanges -/

theorem endExchange_work (l : Line) : Work s (s.endExchange l) := (endExchange_settled s l).work

theorem jobFailed_work (l : Line) (t : Nat) (c : FailCause) : Work s (s.jobFailed l t c) := by
  unfold State.jobFailed
  split
  · exact .refl s
  · exact (lineFailure_work _ l _).after ((afterRemoval_settled _ _).work.after ((post_work _ _).after
      ((loadingToPending_settled _ _ _).work.after (removeJob_settled s t).work)))

theorem failExchange_work (l : Line) (x : Exchange) (c : FailCause) : Work s (s.failExchange l x c) := by
  unfold State.failExchange
  simp only
  refine (endExchange_work s l).trans ?_
  split
  · exact jobFailed_work _ l _ c
  · exact jobFailed_work _ l _ c
  · exact jobFailed_work _ l _ c
  · exact jobFailed_work _ l _ c
  · exact lineFailure_work _ l _
  · exact (lineFailure_work _ l none).after (revertEnded_work _ _ false)
  · exact nextProbe_work _ _
  · exact .refl _
  · exact (lineFailure_work _ l none).after ((afterProbe_work _ l x).after (missProbe_work _ _))
  · split
    · exact afterProbe_work _ l x
    · exact (lineFailure_work _ l none).after ((afterProbe_work _ l x).after (missProbe_work _ _))

theorem countRetry_work (l : Line) (x : Exchange) : Work s (s.countRetry l x) := by
  unfold State.countRetry
  have h := (modLine_work _ l (f := fun e => { e with exchange := some { x with retries := x.retries + 1 } })
    ).after (modStats_work s l fun st => { st with retries := bump st.retries 1 })
  simp only
  split
  · exact h
  · exact h.trans (modJob_work _ _ _)

theorem attemptFailed_work (l : Line) (c : FailCause) : Work s (s.attemptFailed l c) := by
  unfold State.attemptFailed
  split
  · exact .refl s
  · split
    · split
      · exact (abandon_settled s l).work
      · exact (startAttempt_settled _ l).work.after (countRetry_work s l _)
    · exact failExchange_work s l _ c

theorem dropJob_work (t : Nat) (j : Job) : Work s (s.dropJob t j) := by
  unfold State.dropJob
  split
  · exact (removeJob_settled s t).work
  · exact .refl s

theorem unitFault_work (l : Line) (t : Nat) (j : Job) (k : FaultKind) (m : Entry → Entry) (b : Bool) :
    Work s (s.unitFault l t j k m b) := by
  have h := (charge_work _ { slot := j.slot, serial := j.serial }).after ((modEntry_work _ j.slot m).after
    ((post_work _ (.jobFailed j.slot t j.imageId (.unitFault k) j.next)).after
      ((loadingToPending_settled _ j.slot j.serial).work.after
        ((dropJob_work _ t j).after (lineSuccess_work s l)))))
  unfold State.unitFault
  simp only
  split
  · exact h.trans (resolve_settled _ _).work
  · exact h.trans (afterRemoval_settled _ _).work

theorem plainFault_work (l : Line) (t : Nat) (j : Job) (k : FaultKind) : Work s (s.plainFault l t j k) :=
  unitFault_work s l t j k _ _

theorem resendFresh_work (l : Line) (t : Nat) (j : Job) (e : Entry) : Work s (s.resendFresh l t j e) := by
  unfold State.resendFresh
  split
  · exact parkJob_work s t
  · exact (beginJobExchange_settled s l t j e _).work

theorem startWait_work (t : Nat) (e : Entry) (k : WaitKind) : Work s (s.startWait t e k) := modJob_work s t _

theorem makeReady_work (l : Line) (t : Nat) : Work s (s.makeReady l t) :=
  (modLine_work _ l).after (modJob_work s t _)

theorem acceptFill_work (l : Line) (t : Nat) (j : Job) (e : Entry) (m : LoadMode) (f : Fill) :
    Work s (s.acceptFill l t j e m f) := by
  unfold State.acceptFill
  refine (modJob_work s t fun j => { j with next := f.fill }).trans ?_
  simp only
  split
  · exact parkJob_work _ t
  · split
    · exact startWait_work _ t e _
    · exact makeReady_work _ l t

theorem applyFill_work (l : Line) (t : Nat) (j : Job) (e : Entry) (img : Image) (m : LoadMode) (f : Fill) :
    Work s (s.applyFill l t j e img m f) := by
  unfold State.applyFill
  split
  · exact unitFault_work s l t j _ _ _
  · exact (resendFresh_work s l t j e).trans (lineSuccess_work _ l)
  · exact plainFault_work s l t j _
  · split
    · exact (resendFresh_work s l t j e).trans (lineSuccess_work _ l)
    · exact (acceptFill_work s l t j e _ f).trans (lineSuccess_work _ l)
  · split
    · exact plainFault_work s l t j _
    · exact (acceptFill_work s l t j e _ f).trans (lineSuccess_work _ l)

theorem acceptBurst_work (l : Line) (t : Nat) (j : Job) (e : Entry) (n : Nat) (f : Taken) :
    Work s (s.acceptBurst l t j e n f) := by
  unfold State.acceptBurst
  refine ((modStats_work s l fun st => { st with blocksDelivered := bump st.blocksDelivered n }).trans
    (modJob_work _ t fun j => { j with next := f.fill, retriesUsed := 0 })).trans ?_
  simp only
  split
  · exact parkJob_work _ t
  · split
    · exact startWait_work _ t e _
    · exact makeReady_work _ l t

theorem shortTaken_work (l : Line) (x : Exchange) (t : Nat) (j : Job) (e : Entry) (img : Image) (n : Nat) :
    Work s (s.shortTaken l x t j e img n) := by
  unfold State.shortTaken
  refine (modJob_work s t fun j => { j with next := n }).trans ?_
  simp only
  split
  · split
    · exact ((endExchange_work _ l).trans (parkJob_work _ t)).trans (lineSuccess_work _ l)
    · exact (requestRead_settled _ l _).work.after (countRetry_work _ l _)
  · exact failExchange_work _ l x _

theorem applyBurstTaken_work (l : Line) (x : Exchange) (t a n : Nat) (j : Job) (e : Entry) (img : Image) (f : Taken) :
    Work s (s.applyBurstTaken l x t a n j e img f) := by
  unfold State.applyBurstTaken
  split
  · exact ((endExchange_work s l).trans (acceptBurst_work _ l t j e n f)).trans (lineSuccess_work _ l)
  · split
    · exact shortTaken_work s l x t j e img _
    · exact (endExchange_work s l).trans (plainFault_work _ l t j _)

theorem applyCheckTaken_work (l : Line) (t : Nat) (j : Job) (e : Entry) (img : Image) (f : Taken) :
    Work s (s.applyCheckTaken l t j e img f) := by
  unfold State.applyCheckTaken
  split
  · exact plainFault_work s l t j _
  · split
    · exact (parkJob_work s t).trans (lineSuccess_work _ l)
    · exact (lineSuccess_work _ l).after (modJob_work s t _)

theorem keepWait_work (t : Nat) (j : Job) (g n : Nat) : Work s (s.keepWait t j g n) := by
  unfold State.keepWait
  refine (modJob_work s t fun j => { j with next := n, pollDue := some (s.now + g) }).trans ?_
  simp only
  split
  · exact parkJob_work _ t
  · exact .refl _

theorem endWait_work (l : Line) (t : Nat) (j : Job) (w : WaitKind) (u : UnitReport) :
    Work s (s.endWait l t j w u) := by
  have h : Work s ((if w = .burst then s.sample j.slot u.busyTime else s).modJob t fun j => { j with next := u.fill }) :=
    (modJob_work _ t _).after (.optional _ _ (f := fun s => s.sample j.slot u.busyTime)
      (fun v => modEntry_work v j.slot _) (.refl s))
  unfold State.endWait
  simp only
  split
  · exact (parkJob_work _ t).after h
  · exact (makeReady_work _ l t).after h

theorem completeJob_work (t : Nat) (j : Job) (e : Entry) (img : Image) : Work s (s.completeJob t j e img) := by
  unfold State.completeJob
  simp only
  refine Work.trans (Work.trans ?_ (removeJob_settled _ t).work) (createJobs_settled _).work
  split
  · exact (wake_settled _ _).work.after ((post_work _ _).after (setEntry_work s _ _))
  · exact setEntry_work s _ _

theorem applyReleased_work (l : Line) (x : Exchange) (t : Nat) (j : Job) (e : Entry) (img : Image) (w : WaitKind)
    (u : UnitReport) : Work s (s.applyReleased l x t j e img w u) := by
  have h := endExchange_work s l
  unfold State.applyReleased
  simp only
  split
  · exact h.trans (plainFault_work _ l t j _)
  · split
    · exact h.trans (plainFault_work _ l t j _)
    · split
      · split
        · exact (failExchange_work _ l x _).after (modJob_work s t _)
        · exact (h.trans (keepWait_work _ t j _ _)).trans (lineSuccess_work _ l)
      · exact (h.trans (endWait_work _ l t j w u)).trans (lineSuccess_work _ l)

theorem applyVerifying_work (l : Line) (x : Exchange) (t : Nat) (j : Job) (e : Entry) (img : Image) (u : UnitReport) :
    Work s (s.applyVerifying l x t j e img u) := by
  have h := endExchange_work s l
  unfold State.applyVerifying
  simp only
  split
  · exact h.trans (plainFault_work _ l t j _)
  · split
    · split
      · exact failExchange_work s l x _
      · exact (h.trans (keepWait_work _ t j _ _)).trans (lineSuccess_work _ l)
    · split
      · exact (h.trans (completeJob_work _ t j e img)).trans (lineSuccess_work _ l)
      · exact h.trans (unitFault_work _ l t j _ _ _)
      · exact h.trans (plainFault_work _ l t j _)

theorem applyIdent_work (l : Line) (x : Exchange) (i : Ident) : Work s (s.applyIdent l x i) := by
  have h := endExchange_work s l
  unfold State.applyIdent
  simp only
  split
  · exact (handleIdent_work _ l _ _ i).after ((startFull_work _ l).after ((recoverLine_work _ l).after h))
  · exact (lineSuccess_work _ l).after ((afterProbe_work _ l x).after ((handleIdent_work _ l _ _ i).after h))
  · exact (lineSuccess_work _ l).after ((afterProbe_work _ l x).after ((handleIdent_work _ l _ _ i).after h))
  · exact (lineSuccess_work _ l).after ((nextProbe_work _ _).after ((handleIdent_work _ l _ _ i).after h))
  · exact h

/-- Whatever a valid reply does is work. -/
theorem applyReply_work (l : Line) (x : Exchange) (r : CabinReply) : Work s (s.applyReply l x r) := by
  have h := endExchange_work s l
  unfold State.applyReply
  split
  · split
    · exact h
    · exact h.trans (applyFill_work _ l _ _ _ _ _ _)
  · split
    · exact h
    · exact applyBurstTaken_work s l x _ _ _ _ _ _ _
  · split
    · exact h
    · exact h.trans (applyCheckTaken_work _ l _ _ _ _ _)
  · exact (h.trans (lineSuccess_work _ l)).trans (startActivation_work _ _ _)
  · exact (h.trans (lineSuccess_work _ l)).trans (revertEnded_work _ _ true)
  · split
    · exact h
    · split
      · exact applyVerifying_work s l x _ _ _ _ _
      · exact applyReleased_work s l x _ _ _ _ _ _
      · exact h
  · exact applyIdent_work s l x _
  · exact h

theorem badReply_work (l : Line) (c : BadCounter) : Work s (s.badReply l c) :=
  (attemptFailed_work _ l .bad).after (modStats_work s l _)

/-- Whatever a reception does is work. -/
theorem receive_work (l : Line) (r : CabinReply) : Work s (s.receive l r) := by
  have q : Work s (s.unquiet l) := modLine_work s l
  unfold State.receive
  split
  · exact q
  · split
    · exact (applyReply_work _ l _ r).after ((modStats_work _ l _).after q)
    · exact q.trans (badReply_work _ l _)

theorem receiveRaw_work (l : Line) (rx : Reception) : Work s (s.receiveRaw l rx) := by
  have q : Work s (s.unquiet l) := modLine_work s l
  unfold State.receiveRaw
  split
  · exact q
  · split
    · exact q.trans (badReply_work _ l _)
    · exact (applyReply_work _ l _ _).after ((modStats_work _ l _).after q)

theorem timeOut_work (l : Line) : Work s (s.timeOut l) := by
  unfold State.timeOut
  split
  · exact .refl s
  · exact (attemptFailed_work _ l .noReply).after ((modLine_work _ l).after (modStats_work s l _))

/-! ### The image store -/

theorem releaseExtents_work (r : Image) (o : Option Nat) : Work s (s.releaseExtents r o) :=
  (releaseExtents_settled s r o).work

theorem forget_work (id : Nat) : Work s (s.forget id) :=
  { Work.refl s with
    ids := List.Sublist.map _ List.filter_sublist
    slots := by simp [State.forget] }

theorem freeRecord_work (r : Image) (o : Option Nat) : Work s (s.freeRecord r o) :=
  (forget_work _ _).after (releaseExtents_work s r o)

theorem endClose_work (id : Nat) : Work s (s.endClose id) := by
  have h : ∀ (t : State) p, Work t (t.endCloseOn p id) := fun t p => by
    unfold State.endCloseOn
    split
    · exact emptySlot_work t p
    · exact .refl t
  exact ((h s .Y).trans (h _ .V)).trans (h _ .S)

theorem requestProgram_work (p : Program) : Work s (s.requestProgram p) := modEng_work s

theorem requestCloseMark_work (r : Image) : Work s (s.requestCloseMark r) := by
  unfold State.requestCloseMark
  split
  · exact .refl s
  · exact (requestProgram_work _ _).after (modImage_work s r.id)

theorem requestDropMark_work (r : Image) : Work s (s.requestDropMark r) := by
  unfold State.requestDropMark
  split
  · exact .refl s
  · exact (requestProgram_work _ _).after (modImage_work s r.id)

theorem requestBlock_work (r : Image) (b x : Nat) (d : List Byte) (t : Ticket) : Work s (s.requestBlock r b x d t) := by
  unfold State.requestBlock
  refine (modImage_work s r.id (f := fun r => r.setBlock b .writing) fun _ => rfl).trans ?_
  simp only
  split
  · exact (requestProgram_work _ _).after ((requestProgram_work _ _).after (modImage_work _ r.id))
  · exact requestProgram_work _ _

theorem damage_work (p : Program) (c : StoreFaultCause) : Work s (s.damage p c) := by
  unfold State.damage
  split
  · exact .refl s
  · exact (post_work _ _).after ((finishAll_work _ _ _).after ((modEng_work _).after
      ((modImage_work _ _).after (releaseExtents_work s _ _))))

theorem closeFailed_work (r : Image) (c : CloseFailCause) (o : Option Nat) : Work s (s.closeFailed r c o) :=
  (endClose_work _ _).after ((post_work _ _).after ((modImage_work _ _).after (releaseExtents_work s _ _)))

theorem freeDropped_work (r : Image) (o : Option Nat) : Work s (s.freeDropped r o) :=
  (finishAll_work _ _ _).after ((endClose_work _ _).after ((post_work _ _).after (freeRecord_work s r o)))

theorem closeMarkWritten_work (r : Image) : Work s (s.closeMarkWritten r) := by
  unfold State.closeMarkWritten
  split
  · exact requestDropMark_work s r
  · exact (resolveAll_settled _).work.after ((endClose_work _ _).after ((post_work _ _).after
      (modImage_work s r.id)))

theorem closeMarkFailed_work (r : Image) (x : Nat) : Work s (s.closeMarkFailed r x) := by
  unfold State.closeMarkFailed
  split
  · exact (post_work _ _).after (freeDropped_work s r _)
  · exact (post_work _ _).after ((modImage_work _ _).after (closeFailed_work s r _ _))

theorem closeMarkAbandoned_work (r : Image) : Work s (s.closeMarkAbandoned r) := by
  unfold State.closeMarkAbandoned
  split
  · exact freeDropped_work s r _
  · exact closeFailed_work s r _ _

theorem dropMarkEnded_work (r : Image) : Work s (s.dropMarkEnded r) := by
  unfold State.dropMarkEnded
  split
  · exact (finishAll_work _ _ _).after (modImage_work s r.id)
  · exact freeDropped_work s r _

theorem dropMarkFailed_work (r : Image) (x : Nat) : Work s (s.dropMarkFailed r x) := by
  unfold State.dropMarkFailed
  split
  · exact (finishAll_work _ _ _).after ((post_work _ _).after (modImage_work s r.id))
  · exact (freeDropped_work _ r _).after (post_work s _)

theorem forProgram_work (p : Program) {f : State → Image → State} (h : ∀ s r, Work s (f s r)) :
    Work s (s.forProgram p f) := by
  unfold State.forProgram
  split
  · split
    · exact .refl s
    · exact h s _
  · exact .refl s

theorem saveEnded_work (b : Bool) : Work s (s.saveEnded b) := by
  unfold State.saveEnded
  split
  · exact (emptySlot_work _ _).after ((post_work _ _).after { Work.refl s with })
  · exact .refl s

theorem opFailed_work (o : FlashOp) : Work s (s.opFailed o) := by
  unfold State.opFailed
  split
  · split
    · exact forProgram_work s _ fun s _ => damage_work s _ _
    · exact forProgram_work s _ fun s _ => damage_work s _ _
    · exact forProgram_work s _ fun s r => closeMarkFailed_work s r _
    · exact forProgram_work s _ fun s r => dropMarkFailed_work s r _
  · exact (post_work _ _).after (modStore_work s (List.Sublist.refl _))
  · exact saveEnded_work s _
  · exact saveEnded_work s _
  · exact .refl s
  · exact .refl s
  · exact .refl s
  · exact .refl s

theorem abandonOp_work (o : FlashOp) : Work s (s.abandonOp o) := by
  unfold State.abandonOp
  split
  · split
    · exact forProgram_work s _ fun s _ => damage_work s _ _
    · exact forProgram_work s _ fun s _ => damage_work s _ _
    · exact forProgram_work s _ fun s r => closeMarkAbandoned_work s r
    · exact forProgram_work s _ fun s r => dropMarkEnded_work s r
  · exact saveEnded_work s _
  · exact saveEnded_work s _
  · exact .refl s
  · exact .refl s
  · exact .refl s
  · exact .refl s
  · exact .refl s

theorem handBack_work (p : Program) : Work s (s.handBack p) := by
  unfold State.handBack
  split
  · exact (finish_work _ _ _ _).after (modImage_work s _)
  · exact modImage_work s _
  · exact forProgram_work s _ fun s r => closeMarkAbandoned_work s r
  · exact forProgram_work s _ fun s r => dropMarkEnded_work s r

theorem settle_work : Work s s.settle := (settle_settled s).work

theorem settleFlash_work : Work s s.settleFlash := (settleFlash_settled s).work

end Sys2Proof.Machine
end

