-- ==== Sys2Proof/Laws/Flash.lean ====
section
/-!
SUPPORT. The laws of the attached flash as a memory: reading back what was written, what a write or an erase leaves
elsewhere, that every operation on it keeps its canonical form, and that two flashes in that form which read the same
are the same.
-/

namespace Sys2Proof.Machine

open Sys2Proof

/-! ### Reading back -/

theorem flashRead_clear (m : List Host.Cell) (lo a : Nat) (h : flashWfFrom lo m = true) (x : Nat) :
    flashRead (flashClear m a) x = if x = a then Config.erasedByte else flashRead m x := by
  have below : ∀ (m : List Host.Cell) (lo x : Nat), flashWfFrom lo m = true → x < lo →
      flashRead m x = Config.erasedByte := by
    intro m
    induction m with
    | nil => intro _ _ _ _; rfl
    | cons c m ih =>
      intro lo x h hx
      obtain ⟨b, v⟩ := c
      simp only [flashWfFrom, Bool.and_eq_true, decide_eq_true_eq] at h
      simp only [flashRead]
      rw [if_neg (by omega)]
      exact ih _ _ h.2 (by omega)
  induction m generalizing lo with
  | nil => simp [flashClear, flashRead]
  | cons c m ih =>
    obtain ⟨b, v⟩ := c
    simp only [flashWfFrom, Bool.and_eq_true, decide_eq_true_eq] at h
    simp only [flashClear]
    by_cases hb : b = a
    · subst hb
      rw [if_pos rfl]
      by_cases hx : x = b
      · subst hx; rw [if_pos rfl]; exact below m _ _ h.2 (by omega)
      · rw [if_neg hx]; simp [flashRead, Ne.symm hx]
    · rw [if_neg hb]
      simp only [flashRead]
      by_cases hx : b = x
      · subst hx; simp [hb]
      · rw [if_neg hx, ih _ h.2]; simp [hx]

theorem flashRead_insert (m : List Host.Cell) (a : Nat) (v : Byte) (x : Nat) :
    flashRead (flashInsert m a v) x = if x = a then v else flashRead m x := by
  induction m with
  | nil => simp only [flashInsert, flashRead]; split <;> simp_all [eq_comm]
  | cons c m ih =>
    obtain ⟨b, w⟩ := c
    simp only [flashInsert]
    split
    · simp only [flashRead]
      by_cases hx : a = x
      · subst hx; simp
      · simp [hx, Ne.symm hx]
    · split
      · next hab =>
        subst hab
        simp only [flashRead]
        by_cases hx : a = x
        · subst hx; simp
        · simp [hx, Ne.symm hx]
      · next hab =>
        simp only [flashRead, ih]
        by_cases hx : b = x
        · subst hx; simp [Ne.symm hab]
        · simp [hx]

/-- A byte written reads back, and every other byte reads as before. -/
theorem flashRead_write {m : List Host.Cell} (h : flashWf m = true) (a : Nat) (v : Byte) (x : Nat) :
    flashRead (flashWrite m a v) x = if x = a then v else flashRead m x := by
  unfold flashWrite
  split
  · next hv => rw [flashRead_clear m 0 a h x, hv]
  · exact flashRead_insert m a v x

/-! ### The canonical form -/

theorem flashWfFrom_mono {m : List Host.Cell} {lo hi : Nat} (h : flashWfFrom hi m = true) (k : lo ≤ hi) :
    flashWfFrom lo m = true := by
  cases m with
  | nil => rfl
  | cons c m =>
    obtain ⟨b, v⟩ := c
    simp only [flashWfFrom, Bool.and_eq_true, decide_eq_true_eq] at h ⊢
    exact ⟨⟨by omega, h.1.2⟩, h.2⟩

theorem flashClear_wf {m : List Host.Cell} {lo : Nat} (a : Nat) (h : flashWfFrom lo m = true) :
    flashWfFrom lo (flashClear m a) = true := by
  induction m generalizing lo with
  | nil => rfl
  | cons c m ih =>
    obtain ⟨b, v⟩ := c
    simp only [flashWfFrom, Bool.and_eq_true, decide_eq_true_eq] at h
    simp only [flashClear]
    split
    · exact flashWfFrom_mono h.2 (by omega)
    · simp only [flashWfFrom, Bool.and_eq_true, decide_eq_true_eq]
      exact ⟨h.1, ih h.2⟩

theorem flashInsert_wf {m : List Host.Cell} {lo a : Nat} {v : Byte} (hv : v ≠ Config.erasedByte) (ha : lo ≤ a)
    (h : flashWfFrom lo m = true) : flashWfFrom lo (flashInsert m a v) = true := by
  induction m generalizing lo with
  | nil => simp [flashInsert, flashWfFrom, ha, hv]
  | cons c m ih =>
    obtain ⟨b, w⟩ := c
    simp only [flashWfFrom, Bool.and_eq_true, decide_eq_true_eq] at h
    simp only [flashInsert]
    split
    · simp only [flashWfFrom, Bool.and_eq_true, decide_eq_true_eq]
      exact ⟨⟨ha, by simpa using hv⟩, ⟨by omega, h.1.2⟩, h.2⟩
    · split
      · next hab =>
        simp only [flashWfFrom, Bool.and_eq_true, decide_eq_true_eq]
        exact ⟨⟨ha, by simpa using hv⟩, by rw [hab]; exact h.2⟩
      · simp only [flashWfFrom, Bool.and_eq_true, decide_eq_true_eq]
        exact ⟨h.1, ih (by omega) h.2⟩

/-- Writing a byte keeps the canonical form. -/
theorem flashWrite_wf {m : List Host.Cell} (a : Nat) (v : Byte) (h : flashWf m = true) :
    flashWf (flashWrite m a v) = true := by
  unfold flashWrite
  split
  · exact flashClear_wf a h
  · exact flashInsert_wf ‹_› (Nat.zero_le _) h

/-- Writing a run of bytes keeps the canonical form. -/
theorem flashWriteAll_wf {m : List Host.Cell} (a : Nat) (vs : List Byte) (h : flashWf m = true) :
    flashWf (flashWriteAll m a vs) = true := by
  induction vs generalizing m a with
  | nil => exact h
  | cons v vs ih => exact ih (a + 1) (flashWrite_wf a v h)

/-- A run of bytes written reads back, and every byte outside it reads as before. -/
theorem flashRead_writeAll {m : List Host.Cell} (h : flashWf m = true) (a : Nat) (vs : List Byte) (x : Nat) :
    flashRead (flashWriteAll m a vs) x =
      if a ≤ x ∧ x < a + vs.length then vs.getD (x - a) Config.erasedByte else flashRead m x := by
  induction vs generalizing m a with
  | nil => simp only [flashWriteAll, List.length_nil, Nat.add_zero]; rw [if_neg (by omega)]
  | cons v vs ih =>
    simp only [flashWriteAll, List.length_cons]
    rw [ih (flashWrite_wf a v h), flashRead_write h]
    by_cases hx : x = a
    · subst hx; simp
    · by_cases hr : a + 1 ≤ x ∧ x < a + 1 + vs.length
      · rw [if_pos hr, if_pos (by omega), show x - a = (x - (a + 1)) + 1 by omega]; simp
      · rw [if_neg hr, if_neg hx, if_neg (by omega)]

theorem flashErase_wf {m : List Host.Cell} {lo : Nat} (a n : Nat) (h : flashWfFrom lo m = true) :
    flashWfFrom lo (flashErase m a n) = true := by
  induction m generalizing lo with
  | nil => rfl
  | cons c m ih =>
    obtain ⟨b, v⟩ := c
    simp only [flashWfFrom, Bool.and_eq_true, decide_eq_true_eq] at h
    simp only [flashErase, List.filter_cons]
    split
    · simp only [flashWfFrom, Bool.and_eq_true, decide_eq_true_eq]
      exact ⟨h.1, ih h.2⟩
    · exact flashWfFrom_mono (ih h.2) (by omega)

/-- Erased bytes read as erased, and every byte outside them reads as before. -/
theorem flashRead_erase (m : List Host.Cell) (a n x : Nat) :
    flashRead (flashErase m a n) x = if a ≤ x ∧ x < a + n then Config.erasedByte else flashRead m x := by
  induction m with
  | nil => simp [flashErase, flashRead]
  | cons c m ih =>
    obtain ⟨b, v⟩ := c
    simp only [flashErase, List.filter_cons] at ih ⊢
    by_cases hb : a ≤ b ∧ b < a + n
    · rw [if_neg (by simp [hb]), ih]
      simp only [flashRead]
      by_cases hx : b = x
      · subst hx; simp [hb]
      · simp [hx]
    · rw [if_pos (by simp; omega)]
      simp only [flashRead, ih]
      by_cases hx : b = x
      · subst hx; simp [hb]
      · simp [hx]

/-- Free contents keep the canonical form. -/
theorem flashSpoil_wf {m : List Host.Cell} (u a n : Nat) (h : flashWf m = true) : flashWf (flashSpoil m u a n) = true :=
  flashWriteAll_wf a _ h

/-- Free contents leave every byte outside their run as it was. -/
theorem flashRead_spoil {m : List Host.Cell} (h : flashWf m = true) (u a n : Nat) {x : Nat}
    (k : ¬(a ≤ x ∧ x < a + n)) : flashRead (flashSpoil m u a n) x = flashRead m x := by
  unfold flashSpoil
  rw [flashRead_writeAll h, if_neg (by simpa using k)]

theorem flashRead_below {m : List Host.Cell} {lo x : Nat} (h : flashWfFrom lo m = true) (k : x < lo) :
    flashRead m x = Config.erasedByte := by
  induction m generalizing lo with
  | nil => rfl
  | cons c m ih =>
    obtain ⟨b, v⟩ := c
    simp only [flashWfFrom, Bool.and_eq_true, decide_eq_true_eq] at h
    simp only [flashRead]
    rw [if_neg (by omega)]
    exact ih h.2 (by omega)

/-- The form is canonical: two flashes in it that read the same everywhere are the same. -/
theorem flash_ext {m n : List Host.Cell} {lo : Nat} (hm : flashWfFrom lo m = true) (hn : flashWfFrom lo n = true)
    (h : ∀ x, flashRead m x = flashRead n x) : m = n := by
  induction m generalizing n lo with
  | nil =>
    cases n with
    | nil => rfl
    | cons c n =>
      obtain ⟨b, v⟩ := c
      simp only [flashWfFrom, Bool.and_eq_true, decide_eq_true_eq] at hn
      have := h b
      simp [flashRead] at this
      simp [this] at hn
  | cons c m ih =>
    obtain ⟨a, v⟩ := c
    simp only [flashWfFrom, Bool.and_eq_true, decide_eq_true_eq] at hm
    cases n with
    | nil =>
      have := h a
      simp [flashRead] at this
      simp [this] at hm
    | cons d n =>
      obtain ⟨b, w⟩ := d
      simp only [flashWfFrom, Bool.and_eq_true, decide_eq_true_eq] at hn
      have hab : a = b := by
        by_contra hne
        rcases Nat.lt_or_gt_of_ne hne with hlt | hgt
        · have h1 := h a
          simp only [flashRead] at h1
          rw [if_pos trivial, if_neg (Ne.symm hne), flashRead_below hn.2 (by omega)] at h1
          simp [h1] at hm
        · have h1 := h b
          simp only [flashRead] at h1
          rw [if_pos trivial, if_neg hne, flashRead_below hm.2 (by omega)] at h1
          simp [← h1] at hn
      subst hab
      have hvw : v = w := by have := h a; simpa [flashRead] using this
      subst hvw
      congr 1
      refine ih hm.2 hn.2 fun x => ?_
      by_cases hx : a = x
      · subst hx; rw [flashRead_below hm.2 (by omega), flashRead_below hn.2 (by omega)]
      · have := h x; simpa [flashRead, hx] using this

/-! ### The flash in the state -/

theorem scramble_wf {s : State} (op : FlashOp) (h : flashWf s.flash = true) : flashWf (s.scramble op).flash = true := by
  unfold State.scramble
  split
  · exact h
  · split
    · exact flashSpoil_wf _ _ _ h
    · exact h

/-- Free contents leave every byte outside an operation's own as it was. -/
theorem flashRead_scramble {s : State} {op : FlashOp} (h : flashWf s.flash = true) {x : Nat}
    (k : ∀ a n, op.writes = some (a, n) → ¬(a ≤ x ∧ x < a + n)) :
    flashRead (s.scramble op).flash x = flashRead s.flash x := by
  unfold State.scramble
  split
  · rfl
  · split
    · exact flashRead_spoil h _ _ _ (k _ _ ‹_›)
    · rfl

/-- The list count that voids the record is one of the bytes the operation was writing. -/
theorem recordCount_inside {op : FlashOp} {a : Nat} (h : op.recordCount = some a) :
    ∃ b n, op.writes = some (b, n) ∧ b ≤ a ∧ a < b + n := by
  cases op <;> simp only [FlashOp.recordCount, reduceCtorEq] at h
  · cases h; exact ⟨_, _, rfl, by decide, by decide⟩
  · next p =>
    match p, h with
    | 0, rfl => exact ⟨_, _, rfl, by decide, by decide⟩
    | 1, rfl => exact ⟨_, _, rfl, by decide, by decide⟩
    | 2, rfl => exact ⟨_, _, rfl, by decide, by decide⟩
    | 3, rfl => exact ⟨_, _, rfl, by decide, by decide⟩

/-- What is left by an operation that fails or is cut off keeps the canonical form. -/
theorem spoil_wf {s : State} (op : FlashOp) (h : flashWf s.flash = true) : flashWf (s.spoil op).flash = true := by
  unfold State.spoil
  simp only
  split
  · exact scramble_wf op h
  · split
    · rw [State.modFlash_flash]
      exact flashWrite_wf _ _ (scramble_wf op h)
    · exact scramble_wf op h

/-- An operation that fails or is cut off leaves every byte it was not writing as it was. -/
theorem flashRead_spoilOp {s : State} {op : FlashOp} (h : flashWf s.flash = true) {x : Nat}
    (k : ∀ a n, op.writes = some (a, n) → ¬(a ≤ x ∧ x < a + n)) : flashRead (s.spoil op).flash x = flashRead s.flash x := by
  unfold State.spoil
  simp only
  split
  · exact flashRead_scramble h k
  · next a ha =>
    split
    · obtain ⟨b, n, hw, h1, h2⟩ := recordCount_inside ha
      rw [State.modFlash_flash, flashRead_write (scramble_wf op h), if_neg (by rintro rfl; exact k b n hw ⟨h1, h2⟩)]
      exact flashRead_scramble h k
    · exact flashRead_scramble h k

theorem getElem?_readRange (m : List Host.Cell) (a : Nat) : ∀ (n i : Nat), i < n →
    (flashReadRange m a n)[i]? = some (flashRead m (a + i))
  | n + 1, 0, _ => by simp [flashReadRange]
  | n + 1, i + 1, h => by
    simp only [flashReadRange, List.getElem?_cons_succ]
    rw [getElem?_readRange m (a + 1) n i (by omega)]
    congr 2; omega

/-- A record whose byte at a list count's place is 0xFF is not valid (R173). -/
theorem record_void {r : List Byte} {p a : Nat} (h : countPlace p = some a) (k : r[a]? = some Config.erasedByte) :
    recordValid r = false := by
  have hk : num8 r a = 255 := by simp [num8, k, Config.erasedByte]
  match p, h with
  | 0, rfl => simp [recordValid, hk, Config.maxRules]
  | 1, rfl => simp [recordValid, hk, Config.maxPins]
  | 2, rfl => simp [recordValid, hk, Config.maxPins]
  | 3, rfl => simp [recordValid, hk, Config.maxPins]

/-- A settings erase or page that fails or is cut off leaves no valid record (R175). -/
theorem spoil_void {s : State} {op : FlashOp} (h : flashWf s.flash = true) (k : op.recordCount.isSome = true) :
    recordValid (s.spoil op).storedRecord = false := by
  obtain ⟨a, ha⟩ := Option.isSome_iff_exists.1 k
  have hp : ∃ p, countPlace p = some a := by
    cases op <;> simp only [FlashOp.recordCount, reduceCtorEq] at ha
    · exact ⟨0, ha⟩
    · exact ⟨_, ha⟩
  obtain ⟨p, hp⟩ := hp
  have hlt : a < 1024 := by
    match p, hp with
    | 0, rfl => decide
    | 1, rfl => decide
    | 2, rfl => decide
    | 3, rfl => decide
  unfold State.spoil
  simp only [ha]
  split
  · refine record_void hp ?_
    unfold State.storedRecord
    have : pageAddr 0 0 + a = a := by simp [pageAddr]
    rw [getElem?_readRange _ _ Config.recordBytes _ hlt]
    rw [State.modFlash_flash, this, flashRead_write (scramble_wf op h), if_pos rfl]
  · exact Bool.eq_false_iff.2 ‹_›

/-- What a cut-off leaves keeps the canonical form. -/
theorem cutOff_wf {s : State} (op : FlashOp) (h : flashWf s.flash = true) : flashWf (s.cutOff op).flash = true := by
  unfold State.cutOff
  split
  · simp only
    split
    · unfold State.breakTag
      split
      · exact spoil_wf _ h
      · exact flashWriteAll_wf _ _ (spoil_wf _ h)
    · unfold State.breakMark
      split
      · exact spoil_wf _ h
      · exact flashErase_wf _ _ (spoil_wf _ h)
    · exact spoil_wf _ h
  · exact spoil_wf _ h

/-- A cut-off leaves every byte the operation was not writing as it was. -/
theorem flashRead_cutOff {s : State} {op : FlashOp} (h : flashWf s.flash = true) {x : Nat}
    (k : ∀ a n, op.writes = some (a, n) → ¬(a ≤ x ∧ x < a + n)) :
    flashRead (s.cutOff op).flash x = flashRead s.flash x := by
  unfold State.cutOff
  split
  · next p =>
    have hx := k p.addr p.bytes.length rfl
    simp only
    split
    · unfold State.breakTag
      split
      · exact flashRead_spoilOp h k
      · rw [State.modFlash_flash, flashRead_writeAll (spoil_wf _ h), if_neg (by simp only [List.length_map, List.length_take]; omega)]
        exact flashRead_spoilOp h k
    · unfold State.breakMark
      split
      · exact flashRead_spoilOp h k
      · rw [State.modFlash_flash, flashRead_erase, if_neg hx]
        exact flashRead_spoilOp h k
    · exact flashRead_spoilOp h k
  · exact flashRead_spoilOp h k

theorem cutOffOpt_wf {s : State} (op : Option FlashOp) (h : flashWf s.flash = true) :
    flashWf (s.cutOffOpt op).flash = true := by
  cases op with
  | none => exact h
  | some op => exact cutOff_wf op h

theorem loseRecord_wf {s : State} (h : flashWf s.flash = true) : flashWf s.loseRecord.flash = true := by
  unfold State.loseRecord
  split
  · exact spoil_wf _ h
  · exact h

/-- A save that ends before its record is whole leaves no valid record (R175). -/
theorem loseRecord_void {s : State} (h : flashWf s.flash = true) : recordValid s.loseRecord.storedRecord = false := by
  unfold State.loseRecord
  split
  · exact spoil_void h rfl
  · exact Bool.eq_false_iff.2 ‹_›

/-- Losing the record touches extent 0 alone. -/
theorem flashRead_loseRecord {s : State} (h : flashWf s.flash = true) {x : Nat} (k : Config.extentBytes ≤ x) :
    flashRead s.loseRecord.flash x = flashRead s.flash x := by
  unfold State.loseRecord
  split
  · refine flashRead_spoilOp h fun a n e => ?_
    cases e
    omega
  · rfl

/-- A full reset keeps the canonical form. -/
theorem fullReset_wf {s : State} (h : flashWf s.flash = true) : flashWf s.fullReset.flash = true := by
  show flashWf s.cutFlash.flash = true
  unfold State.cutFlash
  simp only
  split
  · exact loseRecord_wf (cutOffOpt_wf _ (cutOffOpt_wf _ h))
  · exact cutOffOpt_wf _ (cutOffOpt_wf _ h)

/-- A write that has ended keeps the canonical form when what it writes does. -/
theorem wrote_wf {s : State} (op : FlashOp) (ok : Bool) {f : List Host.Cell → List Host.Cell}
    (h : flashWf s.flash = true) (k : flashWf (f s.flash) = true) : flashWf (s.wrote op ok f).flash = true := by
  unfold State.wrote
  split
  · exact k
  · exact spoil_wf op h

end Sys2Proof.Machine
end

