-- ==== Sys2Proof/Laws/Calm.lean ====
section
/-!
SUPPORT. What settles when little is left to settle: each part of the end of a step that has nothing to do answers the
state it was given, and a calm state settles by its arbiters' choices alone.
-/

namespace Sys2Proof.Machine

open Sys2Proof

theorem iterate_fixed {α : Type} {f : α → α} {a : α} (h : f a = a) : ∀ n, Nat.repeat f n a = a
  | 0 => rfl
  | n + 1 => by rw [Nat.repeat, iterate_fixed h n, h]

variable {s : State}

theorem retired_none (h : NoRetiring s) : s.retired = none := by
  unfold State.retired
  rw [List.find?_eq_none]
  intro r hr
  simp [h r hr]

/-- Nothing is freed while no RETIRING record waits. -/
theorem freeRetired_fixed (h : s.retired = none) : s.freeRetired = s :=
  iterate_fixed (by simp [State.freeRetired1, h]) _

/-- No job is created while no tag is free or no entry waits. -/
theorem createJobs_fixed (h : s.freeTag = none ∨ s.waitingSlot = none) : s.createJobs = s :=
  iterate_fixed (by rcases h with h | h <;> simp [State.createJob, h]) _

theorem sweepDone_fixed (p : Port) (h : ∀ a b, (s.port p).slot ≠ some (.sweepNow (.ended a) (.ended b))) :
    s.sweepDone p = s := by
  unfold State.sweepDone
  split
  · next a b hs => exact absurd hs (h a b)
  · rfl

theorem sweepsDone_fixed (h : ∀ p a b, (s.port p).slot ≠ some (.sweepNow (.ended a) (.ended b))) : s.sweepsDone = s := by
  unfold State.sweepsDone
  rw [sweepDone_fixed .Y (h .Y), sweepDone_fixed .V (h .V), sweepDone_fixed .S (h .S)]

theorem checkStarted_fixed (h : s.startup.stage ≠ .sweeps) : s.checkStarted = s := by simp [State.checkStarted, h]

/-- An arbiter that was not asked chooses nothing. -/
theorem arbitrate_asleep {l : Line} (h : Asleep s l) : s.arbitrate l = s := by
  simp [State.arbitrate, show (s.line l).wake = false from h]

/-- A calm state settles by the arbiters' choices alone. -/
theorem settle_calm (h : Calm s) : s.settle = ((s.arbitrate .A).arbitrate .B).settleFlash := by
  unfold State.settle
  rw [freeRetired_fixed h.retired, createJobs_fixed h.waiting, h.sweepA, h.sweepB]
  simp only
  rw [sweepsDone_fixed h.covers, checkStarted_fixed (by rw [h.running]; decide)]

/-- While the flash is busy or held, its arbiter starts no operation; it may send a suspend command. -/
theorem choose_busy {f : FlashEngine} (h : f.op.isSome = true ∨ f.hold = true) :
    f.choose = { f with suspending := f.choose.suspending } := by
  unfold FlashEngine.choose
  split
  · rfl
  · next hh =>
    rcases h with h | h
    · obtain ⟨o, ho⟩ := Option.isSome_iff_exists.1 h
      obtain ⟨op, suspended, suspCount, suspending, readA, readB, programs, checks, class4, class5, hold⟩ := f
      cases ho
      simp only
      unfold FlashEngine.maySuspend
      split <;> rfl
    · exact absurd h hh

end Sys2Proof.Machine
end

