-- ==== Sys2Proof/Laws/Plan.lean ====
section
/-!
SUPPORT. The Plan Resolver meets the terms of Safety.lean: the profile lookup finds the profile of R11, the candidate is what
R34 and R35 choose, and its update state is that of R36.
-/

namespace Sys2Proof.Machine

open Sys2Proof

/-! ### Profiles (R11) -/

theorem lookupProfile_for (profiles : List Profile) (cls : Nat) :
    ProfileFor profiles cls (lookupProfile profiles cls) := by
  have claims (k : Nat) : ((profiles[k]?).any fun p => p.used && p.cls == cls) = true ↔
      ∃ p, profiles[k]? = some p ∧ p.used = true ∧ p.cls = cls := by
    cases profiles[k]? <;> simp
  unfold lookupProfile
  split
  · rename_i h
    refine .inr ⟨rfl, fun k h1 h2 hk => ?_⟩
    rw [List.find?_eq_none] at h
    refine h (k - 1) (by simp; omega) ?_
    rw [show k - 1 + 1 = k by omega]
    exact (claims k).2 hk
  · rename_i i h
    have hi := List.mem_range.1 (List.mem_of_find?_eq_some h)
    have hs := List.find?_some (p := fun i => (profiles[i + 1]?).any fun p => p.used && p.cls == cls) h
    refine .inl ⟨by omega, by omega, (claims (i + 1)).1 hs, fun k h1 h2 hk => ?_⟩
    rw [List.find?_range_eq_some] at h
    have := h.2.2 (k - 1) (by omega)
    rw [show k - 1 + 1 = k by omega, (claims k).2 hk] at this
    cases this

/-! ### The tests on an image (R34, R35) -/

theorem versionLt_iff (a b : Version) : versionLt a b = true ↔ Lower a b := by
  unfold versionLt Lower
  split
  · simp; omega
  · split <;> simp <;> omega

theorem retains_iff (e : Entry) (id : Nat) (v : Version) : e.retains id = some v ↔ Retains e id v := by
  unfold Entry.retains Retains
  split
  · rename_i h
    cases e.target with
    | none => simp
    | some g => by_cases hg : g.imageId = id <;> simp [hg, h]
  · rename_i h
    simp [h]

/-- What the tests on an image come to, by how the image stands for the unit. -/
theorem usable_cases (s : State) (e : Entry) (id : Nat) :
    (∃ v, s.usable e id = .retained v ∧ Retains e id v) ∨
    (∀ w, ¬ Retains e id w) ∧
      ((∃ r, s.usable e id = .stored r ∧ s.image id = some r ∧ r.state = .stored) ∨
        s.usable e id = .no ∧ ∀ r, s.image id = some r → r.state ≠ .stored) := by
  unfold State.usable
  split
  · rename_i v h
    exact .inl ⟨v, rfl, (retains_iff e id v).1 h⟩
  · rename_i h
    refine .inr ⟨fun w hw => absurd ((retains_iff e id w).2 hw) (by simp [h]), ?_⟩
    split
    · rename_i r hr
      obtain ⟨h1, h2⟩ := Option.filter_eq_some_iff.1 hr
      exact .inl ⟨r, rfl, h1, by simpa using h2⟩
    · rename_i hr
      refine .inr ⟨rfl, fun r h1 h2 => ?_⟩
      rw [h1] at hr
      simp [Option.filter, h2] at hr

theorem compatible_iff (e : Entry) (r : Image) :
    compatible e r = true ↔ r.cls = e.classCode ∧ r.hwMin ≤ e.hwRev ∧ e.hwRev ≤ r.hwMax := by
  simp [compatible, and_assoc]

theorem fitsEntry_iff (e : Entry) (r : Image) :
    fitsEntry e r = true ↔ r.length ≤ e.capacity ∧ e.refused ≠ some r.id := by
  simp [fitsEntry]

theorem image_id {s : State} {id : Nat} {r : Image} (h : s.image id = some r) : r.id = id := by
  have := List.find?_some h
  simpa using this

/-- The tests on a STORED image that is not retained, as they are made (R34, R35). -/
theorem stored_tests {s : State} {e : Entry} {id : Nat} {r : Image} (hn : ∀ w, ¬ Retains e id w)
    (h : s.image id = some r) (hs : r.state = .stored) :
    (compatible e r = false ∧ ImageFails s e id .incompatible) ∨
    (compatible e r = true ∧ fitsEntry e r = false ∧ ImageFails s e id .tooLarge) ∨
    (compatible e r = true ∧ fitsEntry e r = true ∧ ImagePasses s e id r.version) := by
  have hid := image_id h
  by_cases hc : compatible e r = true
  · refine .inr ?_
    obtain ⟨c1, c2, c3⟩ := (compatible_iff e r).1 hc
    by_cases hf : fitsEntry e r = true
    · obtain ⟨f1, f2⟩ := (fitsEntry_iff e r).1 hf
      exact .inr ⟨hc, hf, .inr ⟨hn, r, h, hs, rfl, c1, c2, c3, f1, hid ▸ f2⟩⟩
    · have : ¬ (r.length ≤ e.capacity ∧ e.refused ≠ some r.id) := fun k => hf ((fitsEntry_iff e r).2 k)
      refine .inl ⟨hc, by simpa using hf, hn, .inr ⟨r, h, hs, .inr ⟨⟨c1, c2, c3⟩, ?_, rfl⟩⟩⟩
      rw [hid] at this
      by_cases hl : r.length ≤ e.capacity
      · exact .inr (Classical.not_not.1 fun k => this ⟨hl, k⟩)
      · exact .inl (by omega)
  · have : ¬ (r.cls = e.classCode ∧ r.hwMin ≤ e.hwRev ∧ e.hwRev ≤ r.hwMax) := fun k => hc ((compatible_iff e r).2 k)
    refine .inl ⟨by simpa using hc, hn, .inr ⟨r, h, hs, .inl ⟨?_, rfl⟩⟩⟩
    by_cases h1 : r.cls = e.classCode
    · exact .inr (by omega)
    · exact .inl h1

/-- An image passes the tests with one version, and fails them with one note, never both. -/
theorem tests_exclude {s : State} {e : Entry} {id : Nat} {v : Version} (h : ImagePasses s e id v) :
    (∀ w, ImagePasses s e id w → w = v) ∧ ∀ n, ¬ ImageFails s e id n := by
  rcases h with hr | ⟨hn, r, h1, h2, h3, h4, h5, h6, h7, h8⟩
  · refine ⟨fun w hw => ?_, fun n hf => hf.1 v hr⟩
    rcases hw with hw | ⟨hw, -⟩
    · obtain ⟨-, g, g1, -, g3⟩ := hr
      obtain ⟨-, k, k1, -, k3⟩ := hw
      rw [g1] at k1
      cases k1
      exact k3.symm.trans g3
    · exact absurd hr (hw v)
  · refine ⟨fun w hw => ?_, fun n hf => ?_⟩
    · rcases hw with hw | ⟨-, q, q1, -, q3, -⟩
      · exact absurd hw (hn w)
      · rw [h1] at q1
        cases q1
        exact q3.symm.trans h3
    · rcases hf with ⟨-, hf | ⟨q, q1, -, ⟨q3, -⟩ | ⟨-, q3, -⟩⟩⟩
      · exact hf.1 r h1 h2
      · rw [h1] at q1
        cases q1
        omega
      · rw [h1] at q1
        cases q1
        rcases q3 with q3 | q3
        · omega
        · exact h8 q3

/-- An image fails the tests with one note. -/
theorem fails_once {s : State} {e : Entry} {id : Nat} {n m : TargetNote} (h : ImageFails s e id n)
    (k : ImageFails s e id m) : n = m := by
  obtain ⟨-, ⟨h1, rfl⟩ | ⟨r, r1, r2, r3⟩⟩ := h <;> obtain ⟨-, ⟨k1, rfl⟩ | ⟨q, q1, q2, q3⟩⟩ := k
  · rfl
  · exact absurd q2 (h1 q q1)
  · exact absurd r2 (k1 r r1)
  · rw [r1] at q1
    cases q1
    rcases r3 with ⟨r3, rfl⟩ | ⟨r3, r4, rfl⟩ <;> rcases q3 with ⟨q3, rfl⟩ | ⟨q3, q4, rfl⟩
    · rfl
    · omega
    · omega
    · rfl

/-! ### Pins and rules (R34, R35) -/

/-- What the deciding pin gives. -/
theorem decidePin_chosen (s : State) (e : Entry) (p : Pin) :
    (∃ v, ImagePasses s e p.imageId v ∧ (s.decidePin e p).note = .noNote ∧ (s.decidePin e p).target =
      some { imageId := p.imageId, version := v, prio := p.prio, origin := .pin, noRetry := p.noRetry }) ∨
    ImageFails s e p.imageId (s.decidePin e p).note ∧ (s.decidePin e p).target = none := by
  unfold State.decidePin
  rcases usable_cases s e p.imageId with ⟨v, hu, hv⟩ | ⟨hn, ⟨r, hu, h1, h2⟩ | ⟨hu, h⟩⟩
  · exact .inl ⟨v, .inl hv, by rw [hu], by rw [hu]⟩
  · rw [hu]
    rcases stored_tests hn h1 h2 with ⟨hc, hf⟩ | ⟨hc, hl, hf⟩ | ⟨hc, hl, hp⟩
    · exact .inr (by simp [hc, hf])
    · exact .inr (by simp [hc, hl, hf])
    · exact .inl ⟨r.version, hp, by simp [hc, hl], by simp [hc, hl]⟩
  · exact .inr (by rw [hu]; exact ⟨⟨hn, .inl ⟨h, rfl⟩⟩, rfl⟩)

theorem ruleMatches_iff (e : Entry) (r : PlanRule) : ruleMatches e r = true ↔ RuleMatches e r := by
  simp [ruleMatches, RuleMatches, and_assoc]

theorem downgrades_iff (e : Entry) (v : Version) :
    downgrades e v = true ↔ ∃ w, e.runningVersion = some w ∧ Lower v w := by
  unfold downgrades
  cases e.runningVersion <;> simp [versionLt_iff]

/-- What one matching rule comes to: a target's version, a skip with a note, or one without. -/
theorem tryRule_cases {s : State} {e : Entry} {r : PlanRule} (hm : RuleMatches e r) :
    (∃ v, s.tryRule e r = .ok v ∧ RuleGives s e r v) ∨
    (∀ v, ¬ RuleGives s e r v) ∧
      ((∃ n, s.tryRule e r = .error (some n) ∧ RuleNotes s e r n) ∨
        s.tryRule e r = .error none ∧ ∀ n, ¬ RuleNotes s e r n) := by
  have last (v : Version) (hp : ImagePasses s e r.imageId v) (ht : s.tryRule e r =
      if downgrades e v && !r.downgrade then .error (some .noDowngrade) else .ok v) :
      (∃ v, s.tryRule e r = .ok v ∧ RuleGives s e r v) ∨
      (∀ v, ¬ RuleGives s e r v) ∧ ((∃ n, s.tryRule e r = .error (some n) ∧ RuleNotes s e r n) ∨
        s.tryRule e r = .error none ∧ ∀ n, ¬ RuleNotes s e r n) := by
    rw [ht]
    by_cases hd : r.downgrade = true
    · exact .inl ⟨v, by simp [hd], hm, hp, .inl hd⟩
    · by_cases hv : downgrades e v = true
      · obtain ⟨w, w1, w2⟩ := (downgrades_iff e v).1 hv
        refine .inr ⟨fun u hu => ?_, .inl ⟨.noDowngrade, by simp [hd, hv], hm, .inr ⟨rfl, by simpa using hd, v, w, hp, w1, w2⟩⟩⟩
        obtain ⟨-, u1, u2⟩ := hu
        rw [(tests_exclude hp).1 u u1] at u2
        exact u2.elim hd fun k => k w w1 w2
      · exact .inl ⟨v, by simp [hv], hm, hp, .inr fun w w1 w2 => hv ((downgrades_iff e v).2 ⟨w, w1, w2⟩)⟩
  have skip (n : TargetNote) (hf : ImageFails s e r.imageId n) : ∀ v, ¬ RuleGives s e r v :=
    fun v hv => (tests_exclude hv.2.1).2 n hf
  rcases usable_cases s e r.imageId with ⟨v, hu, hv⟩ | ⟨hn, ⟨q, hu, h1, h2⟩ | ⟨hu, h⟩⟩
  · exact last v (.inl hv) (by unfold State.tryRule; rw [hu])
  · rcases stored_tests hn h1 h2 with ⟨hc, hf⟩ | ⟨hc, hl, hf⟩ | ⟨hc, hl, hp⟩
    · exact .inr ⟨skip _ hf, .inl ⟨_, by unfold State.tryRule; rw [hu]; simp [hc], hm, .inl ⟨hf, by simp⟩⟩⟩
    · exact .inr ⟨skip _ hf, .inl ⟨_, by unfold State.tryRule; rw [hu]; simp [hc, hl], hm, .inl ⟨hf, by simp⟩⟩⟩
    · exact last q.version hp (by unfold State.tryRule; rw [hu]; simp [hc, hl])
  · have hf : ImageFails s e r.imageId .noRule := ⟨hn, .inl ⟨h, rfl⟩⟩
    refine .inr ⟨skip _ hf, .inr ⟨by unfold State.tryRule; rw [hu], fun n hr => ?_⟩⟩
    rcases hr.2 with ⟨h3, h4⟩ | ⟨-, -, v, w, hp, -⟩
    · exact h4 (fails_once h3 hf)
    · exact (tests_exclude hp).2 _ hf

/-- What the rules of a list come to: the first that gives a target, or the note kept so far, or that of the first rule
skipped with one, or NO_RULE. -/
def FromRules (s : State) (e : Entry) (first : Option TargetNote) (rs : List PlanRule) (d : Decision) : Prop :=
  (∃ (k : Nat) (r : PlanRule) (v : Version), rs[k]? = some r ∧ RuleGives s e r v ∧
    (∀ (j : Nat) (q : PlanRule) w, j < k → rs[j]? = some q → ¬ RuleGives s e q w) ∧ d.note = .noNote ∧
    d.target = some { imageId := r.imageId, version := v, prio := r.prio, origin := .plan, noRetry := false }) ∨
  (∀ q w, q ∈ rs → ¬ RuleGives s e q w) ∧ d.target = none ∧
    (first = some d.note ∨ first = none ∧
      ((∃ (k : Nat) (r : PlanRule), rs[k]? = some r ∧ RuleNotes s e r d.note ∧
        ∀ (j : Nat) (q : PlanRule) m, j < k → rs[j]? = some q → ¬ RuleNotes s e q m) ∨
      (∀ q m, q ∈ rs → ¬ RuleNotes s e q m) ∧ d.note = .noRule))

/-- A fact of the rules before a place, and of one put in front of them. -/
theorem before_cons {r : PlanRule} {rs : List PlanRule} {P : PlanRule → Prop} {k : Nat}
    (h : ∀ (j : Nat) (q : PlanRule), j < k → rs[j]? = some q → P q) (hr : P r) (j : Nat) (q : PlanRule) (hj : j < k + 1)
    (hq : (r :: rs)[j]? = some q) : P q := by
  cases j with
  | zero => cases hq; exact hr
  | succ j => exact h j q (by omega) hq

/-- A rule that gives no target leaves the decision to the others, with its note when it is the first to leave one. -/
theorem fromRules_cons {s : State} {e : Entry} {first f : Option TargetNote} {r : PlanRule} {rs : List PlanRule}
    {d : Decision} (hg : ∀ v, ¬ RuleGives s e r v) (h : FromRules s e f rs d)
    (hf : f = first ∧ (first ≠ none ∨ ∀ m, ¬ RuleNotes s e r m) ∨ first = none ∧ ∃ n, f = some n ∧ RuleNotes s e r n) :
    FromRules s e first (r :: rs) d := by
  rcases h with ⟨k, q, v, h1, h2, h3, h4⟩ | ⟨h1, h2, h3⟩
  · exact .inl ⟨k + 1, q, v, h1, h2, fun j q w hj hq => before_cons (P := fun q => ∀ w, ¬ RuleGives s e q w)
      (fun j q hj hq w => h3 j q w hj hq) hg j q hj hq w, h4⟩
  · refine .inr ⟨fun q w hq => (List.mem_cons.1 hq).elim (fun h => h ▸ hg w) (h1 q w), h2, ?_⟩
    rcases hf with ⟨rfl, hf⟩ | ⟨rfl, n, rfl, hn⟩
    · rcases h3 with h3 | ⟨h0, h3⟩
      · exact .inl h3
      · have hr := hf.resolve_left fun h => h h0
        refine .inr ⟨h0, ?_⟩
        rcases h3 with ⟨k, q, h3, h4, h5⟩ | ⟨h3, h4⟩
        · exact .inl ⟨k + 1, q, h3, h4, fun j q m hj hq => before_cons (P := fun q => ∀ m, ¬ RuleNotes s e q m)
            (fun j q hj hq m => h5 j q m hj hq) hr j q hj hq m⟩
        · exact .inr ⟨fun q m hq => (List.mem_cons.1 hq).elim (fun h => h ▸ hr m) (h3 q m), h4⟩
    · rcases h3 with h3 | ⟨h0, -⟩
      · cases h3
        exact .inr ⟨rfl, .inl ⟨0, r, rfl, hn, fun j _ _ h => absurd h (Nat.not_lt_zero j)⟩⟩
      · cases h0

theorem decideRules_chosen (s : State) (e : Entry) (first : Option TargetNote) (rs : List PlanRule) :
    FromRules s e first rs (s.decideRules e first rs) := by
  induction rs generalizing first with
  | nil => cases first <;> simp [State.decideRules, FromRules]
  | cons r rs ih =>
    by_cases hm : RuleMatches e r
    · have hb := (ruleMatches_iff e r).2 hm
      rcases tryRule_cases (s := s) hm with ⟨v, ht, hv⟩ | ⟨hg, ⟨n, ht, hn⟩ | ⟨ht, hn⟩⟩
      · exact .inl ⟨0, r, v, rfl, hv, fun j _ _ h => absurd h (Nat.not_lt_zero j), by simp [State.decideRules, hb, ht],
          by simp [State.decideRules, hb, ht]⟩
      · cases first with
        | none =>
          have he : s.decideRules e none (r :: rs) = s.decideRules e (some n) rs := by simp [State.decideRules, hb, ht]
          exact he ▸ fromRules_cons hg (ih _) (.inr ⟨rfl, n, rfl, hn⟩)
        | some m =>
          have he : s.decideRules e (some m) (r :: rs) = s.decideRules e (some m) rs := by
            simp [State.decideRules, hb, ht]
          exact he ▸ fromRules_cons hg (ih _) (.inl ⟨rfl, .inl (by simp)⟩)
      · have he : s.decideRules e first (r :: rs) = s.decideRules e first rs := by
          cases first <;> simp [State.decideRules, hb, ht]
        exact he ▸ fromRules_cons hg (ih _) (.inl ⟨rfl, .inr hn⟩)
    · have hb : ruleMatches e r = false := by simpa using fun h => hm ((ruleMatches_iff e r).1 h)
      have he : s.decideRules e first (r :: rs) = s.decideRules e first rs := by simp [State.decideRules, hb]
      exact he ▸ fromRules_cons (fun v h => hm h.1) (ih _) (.inl ⟨rfl, .inr fun m h => hm h.1⟩)

/-- The candidate is what R34 and R35 choose. -/
theorem candidate_chosen (s : State) (e : Entry) : Chosen s e (s.candidate e).target (s.candidate e).note := by
  have hpin : e.pin = if e.servicePin = none then e.yardPin else e.servicePin := by
    unfold Entry.pin
    cases e.servicePin <;> simp
  unfold Chosen State.candidate
  rw [← hpin]
  cases e.pin with
  | some p => exact ⟨fun q h => Option.some.inj h ▸ decidePin_chosen s e p, fun h => nomatch h⟩
  | none =>
    refine ⟨fun q h => (nomatch h), fun _ => ?_⟩
    rcases decideRules_chosen s e none s.rules with h | ⟨h1, h2, h3 | ⟨-, h3⟩⟩
    · exact .inl h
    · cases h3
    · exact .inr ⟨h1, h2, h3⟩

/-! ### The update state (R36) -/

/-- The state for a target is the one that R36 gives. -/
theorem stateFor_gives (e : Entry) (g : Option Target) : Gives e g (stateFor e g) := by
  cases g with
  | none => rfl
  | some g =>
    have hi : e.holdsInactive g.version = true ↔ e.inactiveRecord = { version := some g.version, valid := true } := by
      unfold Entry.holdsInactive
      cases e.inactiveRecord
      simp
    unfold stateFor Gives
    by_cases h1 : e.runningVersion = some g.version
    · simp [h1]
    · by_cases h2 : e.holdsInactive g.version = true
      · simp [h1, h2, hi.1 h2]
      · simp [h1, h2, mt hi.2 h2]

end Sys2Proof.Machine
end

