-- ==== Sys2Proof/Laws/Scan.lean ====
section
/-!
SUPPORT. The start-up scan meets the terms of Safety.lean: a tag page is classed as R139 says, and the store is rebuilt from
the tags as R140 says.
-/

namespace Sys2Proof.Machine

open Sys2Proof

/-! ### One tag (R139) -/

theorem ceilDiv_isCeil (a b : Nat) (hb : 0 < b) : IsCeil a b (ceilDiv a b) := by
  unfold IsCeil ceilDiv
  have h1 := Nat.div_add_mod (a + b - 1) b
  have h2 := Nat.mod_lt (a + b - 1) hb
  rw [Nat.mul_comm] at h1
  generalize (a + b - 1) / b * b = q at *
  omega

theorem isCeil_unique {a b n : Nat} (hb : 0 < b) (h : IsCeil a b n) : n = ceilDiv a b := by
  obtain ⟨h1, h2⟩ := h
  obtain ⟨h3, h4⟩ := ceilDiv_isCeil a b hb
  have h5 : n < ceilDiv a b + 1 := Nat.lt_of_mul_lt_mul_right (a := b) (by rw [Nat.add_mul]; omega)
  have h6 : ceilDiv a b < n + 1 := Nat.lt_of_mul_lt_mul_right (a := b) (by rw [Nat.add_mul]; omega)
  omega

/-- The identity fields a page holds, whatever they are worth. -/
def tagFields (page : List Byte) : TagInfo :=
  { id := num16 page 0, version := numVersion page 2, length := num16 page 6, position := num16 page 8,
    total := num16 page 10, close := closeMarkOf page, drop := dropMarkOf page }

theorem identityOk_iff (page : List Byte) : identityOk page = true ↔ IdentityOf page (tagFields page) := by
  unfold identityOk
  simp only [Bool.and_eq_true, beq_iff_eq, decide_eq_true_eq]
  constructor
  · rintro ⟨⟨⟨⟨⟨h1, h2⟩, h3⟩, h4⟩, h5⟩, h6⟩
    refine ⟨h1, rfl, rfl, rfl, rfl, rfl, h2, h3, h4, ?_, h6⟩
    have := ceilDiv_isCeil (num16 page 6) 15 (by decide)
    rw [show ceilDiv (num16 page 6) 15 = num16 page 10 from h5.symm] at this
    exact this
  · rintro ⟨h1, -, -, -, -, -, h2, h3, h4, h5, h6⟩
    exact ⟨⟨⟨⟨⟨h1, h2⟩, h3⟩, h4⟩, isCeil_unique (by decide) h5⟩, h6⟩

theorem marksOf_fields (page : List Byte) : MarksOf page (tagFields page) := by
  have he : (((page.drop 64).take 9).all (· == Config.erasedByte) = true) ↔ ¬ ∃ b ∈ (page.drop 64).take 9, b ≠ 0xFF#8 := by
    simp [List.all_eq_true, Config.erasedByte]
  have hc : (tagFields page).close = closeFieldOf ((page.drop 64).take 9) := rfl
  refine ⟨fun h => ?_, fun h => ?_, ?_⟩
  · rw [hc, closeFieldOf, if_neg (mt he.1 (not_not.2 h.1)), if_neg (not_not.2 h.2)]
  · rw [hc]
    unfold closeFieldOf
    split
    · rfl
    · rename_i h1
      rw [if_pos fun k => h ⟨Classical.not_not.1 (mt he.2 h1), k⟩]
  · show dropMarkOf page = true ↔ _
    simp [dropMarkOf, dropMarkAt, List.any_eq_true, Config.erasedByte]

/-- A tag page is classed as R139 says. -/
theorem classifyTag_classed (page : List Byte) : TagClassed page (classifyTag page) := by
  have he : (page.all (· == Config.erasedByte) = true) ↔ ∀ b ∈ page, b = 0xFF#8 := by
    simp [List.all_eq_true, Config.erasedByte]
  unfold classifyTag
  split
  · rename_i h
    exact he.1 h
  · rename_i h
    have hn : ∃ b ∈ page, b ≠ 0xFF#8 := by simpa using mt he.2 h
    split
    · rename_i h1
      exact ⟨hn, (identityOk_iff page).1 h1, marksOf_fields page⟩
    · rename_i h1
      refine ⟨hn, fun t ht => h1 ((identityOk_iff page).2 ?_)⟩
      obtain ⟨c, i1, i2, i3, i4, i5, i6⟩ := ht
      rw [i1, i3, i4, i5] at i6
      exact ⟨c, rfl, rfl, rfl, rfl, rfl, i6⟩

/-! ### Lists -/

theorem filterMap_none {α β : Type} (f : α → Option β) (xs : List α) :
    xs.filterMap f = [] ↔ ∀ (k : Nat) (x : α), xs[k]? = some x → f x = none := by
  rw [List.filterMap_eq_nil_iff]
  constructor
  · exact fun h k x hk => h x (List.mem_of_getElem? hk)
  · intro h x hx
    obtain ⟨k, hk⟩ := List.getElem?_of_mem hx
    exact h k x hk

/-- A filter leaves one item exactly when one place of the list passes it. -/
theorem filterMap_one {α β : Type} (f : α → Option β) (xs : List α) :
    (xs.filterMap f).length = 1 ↔ ∃ (k : Nat) (x : α) (y : β), xs[k]? = some x ∧ f x = some y ∧
      ∀ (k' : Nat) (x' : α) (y' : β), xs[k']? = some x' → f x' = some y' → k' = k := by
  induction xs with
  | nil => simp
  | cons x xs ih =>
    cases hx : f x with
    | none =>
      rw [List.filterMap_cons_none hx, ih]
      constructor
      · rintro ⟨k, a, y, h1, h2, h3⟩
        refine ⟨k + 1, a, y, h1, h2, fun k' b z hk hz => ?_⟩
        cases k' with
        | zero => cases hk; rw [hx] at hz; cases hz
        | succ k' => rw [h3 k' b z hk hz]
      · rintro ⟨k, a, y, h1, h2, h3⟩
        cases k with
        | zero => cases h1; rw [hx] at h2; cases h2
        | succ k => exact ⟨k, a, y, h1, h2, fun k' b z hk hz => Nat.succ.inj (h3 (k' + 1) b z hk hz)⟩
    | some y =>
      rw [List.filterMap_cons_some hx, List.length_cons, Nat.add_eq_right, List.length_eq_zero_iff, filterMap_none]
      constructor
      · intro h
        refine ⟨0, x, y, rfl, hx, fun k' b z hk hz => ?_⟩
        cases k' with
        | zero => rfl
        | succ k' => rw [h k' b hk] at hz; cases hz
      · rintro ⟨k, a, z, h1, h2, h3⟩ j b hb
        have h0 := h3 0 x y rfl hx
        cases hf : f b with
        | none => rfl
        | some w => exact absurd (h3 (j + 1) b w hb hf) (by omega)

theorem flatten_ones {α β : Type} (f : α → List β) (d : β) (l : List α) (h : ∀ a ∈ l, (f a).length = 1) :
    (l.map f).flatten = l.map fun a => (f a).headD d := by
  induction l with
  | nil => rfl
  | cons a l ih =>
    obtain ⟨b, hb⟩ := List.length_eq_one_iff.1 (h a (List.mem_cons_self ..))
    simp [hb, ih fun c hc => h c (List.mem_cons_of_mem _ hc)]

theorem mem_insertId {id i : Nat} {l : List Nat} : i ∈ insertId id l ↔ i = id ∨ i ∈ l := by
  induction l with
  | nil => simp [insertId]
  | cons x xs ih =>
    unfold insertId
    split
    · simp
    · split
      · rename_i h
        simp [h]
      · simp [ih]
        tauto

theorem insertId_sorted {id : Nat} {l : List Nat} (h : l.Pairwise (· < ·)) : (insertId id l).Pairwise (· < ·) := by
  induction l with
  | nil => simp [insertId]
  | cons x xs ih =>
    obtain ⟨h1, h2⟩ := List.pairwise_cons.1 h
    unfold insertId
    split
    · rename_i hx
      exact List.pairwise_cons.2 ⟨fun y hy => (List.mem_cons.1 hy).elim (fun e => e ▸ hx) fun e => Nat.lt_trans hx (h1 y e), h⟩
    · split
      · exact h
      · refine List.pairwise_cons.2 ⟨fun y hy => ?_, ih h2⟩
        rcases mem_insertId.1 hy with rfl | hy
        · omega
        · exact h1 y hy

/-! ### Groups (R139, R140) -/

theorem mem_wellFormedTags {xs : List (Nat × TagClass)} {n : Nat} {t : TagInfo} :
    (n, t) ∈ wellFormedTags xs ↔ (n, .wellFormed t) ∈ xs := by
  unfold wellFormedTags
  rw [List.mem_filterMap]
  constructor
  · rintro ⟨⟨m, c⟩, h1, h2⟩
    cases c <;> simp at h2
    obtain ⟨rfl, rfl⟩ := h2
    exact h1
  · exact fun h => ⟨_, h, rfl⟩

theorem mem_groupOf {xs : List (Nat × TagClass)} {id n : Nat} {t : TagInfo} :
    (n, t) ∈ groupOf (wellFormedTags xs) id ↔ InGroup xs id n t := by
  simp [groupOf, InGroup, mem_wellFormedTags]

theorem groupIds_spec (ts : List FoundTag) :
    (groupIds ts).Pairwise (· < ·) ∧ ∀ id, id ∈ groupIds ts ↔ ∃ t ∈ ts, t.2.id = id := by
  have go (ts : List FoundTag) (l : List Nat) (h : l.Pairwise (· < ·)) :
      (ts.foldl (fun ids t => insertId t.2.id ids) l).Pairwise (· < ·) ∧
        ∀ id, id ∈ ts.foldl (fun ids t => insertId t.2.id ids) l ↔ id ∈ l ∨ ∃ t ∈ ts, t.2.id = id := by
    induction ts generalizing l with
    | nil => simp [h]
    | cons t ts ih =>
      obtain ⟨h1, h2⟩ := ih (insertId t.2.id l) (insertId_sorted h)
      refine ⟨h1, fun id => ?_⟩
      rw [List.foldl_cons, h2, mem_insertId]
      simp only [List.mem_cons, exists_eq_or_imp]
      constructor
      · rintro ((rfl | h) | h)
        · exact .inr (.inl rfl)
        · exact .inl h
        · exact .inr (.inr h)
      · rintro (h | rfl | h)
        · exact .inl (.inr h)
        · exact .inl (.inl rfl)
        · exact .inr h
  obtain ⟨h1, h2⟩ := go ts [] List.Pairwise.nil
  refine ⟨h1, fun id => (h2 id).trans ?_⟩
  simp

/-- A position of a group is present once. -/
theorem tagsAt_one {xs : List (Nat × TagClass)} {id j : Nat} :
    (tagsAt (groupOf (wellFormedTags xs) id) j).length = 1 ↔ ∃ (k m : Nat) (u : TagInfo),
      xs[k]? = some (m, .wellFormed u) ∧ u.id = id ∧ u.position = j ∧
        ∀ (k' m' : Nat) (u' : TagInfo), xs[k']? = some (m', .wellFormed u') → u'.id = id → u'.position = j → k' = k := by
  unfold tagsAt groupOf wellFormedTags
  rw [List.filter_filterMap, List.filter_filterMap, filterMap_one]
  have hf (x : Nat × TagClass) (y : FoundTag) :
      (((match x.2 with
        | .wellFormed t => some (x.1, t)
        | .erased => none
        | .broken => none : Option FoundTag).filter fun t => t.2.id == id).filter fun t => t.2.position == j) = some y ↔
      x = (y.1, .wellFormed y.2) ∧ y.2.id = id ∧ y.2.position = j := by
    obtain ⟨n, c⟩ := x
    obtain ⟨m, t⟩ := y
    rw [Option.filter_eq_some_iff, Option.filter_eq_some_iff]
    cases c <;> simp
    constructor
    · rintro ⟨⟨⟨rfl, rfl⟩, h1⟩, h2⟩
      exact ⟨⟨rfl, rfl⟩, h1, h2⟩
    · rintro ⟨⟨rfl, rfl⟩, h1, h2⟩
      exact ⟨⟨⟨rfl, rfl⟩, h1⟩, h2⟩
  constructor
  · rintro ⟨k, x, y, h1, h2, h3⟩
    obtain ⟨rfl, h4, h5⟩ := (hf x y).1 h2
    exact ⟨k, y.1, y.2, h1, h4, h5, fun k' m' u' h6 h7 h8 => h3 k' _ (m', u') h6 ((hf _ (m', u')).2 ⟨rfl, h7, h8⟩)⟩
  · rintro ⟨k, m, u, h1, h2, h3, h4⟩
    refine ⟨k, _, (m, u), h1, (hf _ (m, u)).2 ⟨rfl, h2, h3⟩, fun k' x' y' h5 h6 => ?_⟩
    obtain ⟨rfl, h7, h8⟩ := (hf x' y').1 h6
    exact h4 k' y'.1 y'.2 h5 h7 h8

theorem mem_tagsAt {xs : List (Nat × TagClass)} {id j n : Nat} {t : TagInfo} :
    (n, t) ∈ tagsAt (groupOf (wellFormedTags xs) id) j ↔ InGroup xs id n t ∧ t.position = j := by
  simp [tagsAt, mem_groupOf]

/-- The group is accepted in the terms of R140. -/
theorem groupAccepted_iff (xs : List (Nat × TagClass)) (id : Nat) :
    groupAccepted (groupOf (wellFormedTags xs) id) = true ↔ Accepted xs id := by
  have hone {j : Nat} {a b : FoundTag} (h1 : (tagsAt (groupOf (wellFormedTags xs) id) j).length = 1)
      (ha : a ∈ tagsAt (groupOf (wellFormedTags xs) id) j) (hb : b ∈ tagsAt (groupOf (wellFormedTags xs) id) j) : a = b := by
    obtain ⟨c, hc⟩ := List.length_eq_one_iff.1 h1
    rw [hc, List.mem_singleton] at ha hb
    rw [ha, hb]
  unfold groupAccepted
  cases hg : groupOf (wellFormedTags xs) id with
  | nil =>
    refine ⟨fun h => (nomatch h), fun ⟨_, _, _, n, t, h, _⟩ => ?_⟩
    have := mem_groupOf.2 h
    rw [hg] at this
    cases this
  | cons p ps =>
    obtain ⟨n0, t0⟩ := p
    have h0 : InGroup xs id n0 t0 := mem_groupOf.1 (hg ▸ List.mem_cons_self ..)
    simp only [← hg]
    simp only [Bool.and_eq_true, List.all_eq_true, Bool.not_eq_true', List.any_eq_false, beq_iff_eq, decide_eq_true_eq,
      groupClosed, List.any_eq_true, List.mem_range]
    constructor
    · rintro ⟨⟨⟨h1, h2⟩, ⟨⟨m, u⟩, h3, h4⟩⟩, h5⟩
      have ha (n : Nat) (t : TagInfo) (h : InGroup xs id n t) := h1 (n, t) (mem_groupOf.2 h)
      obtain ⟨hm, hp⟩ := mem_tagsAt.1 h3
      refine ⟨fun n t m u ht hu => ?_, fun n t ht => ?_, fun n t j ht hj => ?_, m, u, hm, hp, h4, by simpa using h5 _ h3⟩
      · have a := ha n t ht
        have b := ha m u hu
        exact ⟨a.1.1.1.trans b.1.1.1.symm, a.1.1.2.trans b.1.1.2.symm, a.1.2.trans b.1.2.symm⟩
      · have a := ha n t ht
        rw [a.1.2]
        exact a.2
      · rw [(ha n t ht).1.2] at hj
        exact tagsAt_one.1 (h2 j hj)
    · rintro ⟨h1, h2, h3, m, u, h4, h5, h6, h7⟩
      have hu := mem_tagsAt.2 ⟨h4, h5⟩
      refine ⟨⟨⟨fun x hx => ?_, fun j hj => tagsAt_one.2 (h3 n0 t0 j h0 hj)⟩, ⟨(m, u), hu, h6⟩⟩, fun x hx => ?_⟩
      · have hx := mem_groupOf.1 hx
        have a := h1 x.1 x.2 n0 t0 hx h0
        exact ⟨⟨⟨a.1, a.2.1⟩, a.2.2⟩, a.2.2 ▸ h2 _ _ hx⟩
      · have hp : 0 < u.total := Nat.lt_of_le_of_lt (Nat.zero_le _) (h2 m u h4)
        rw [hone (tagsAt_one.2 (h3 m u 0 h4 hp)) hx hu]
        simpa using h7

/-! ### The store (R140) -/

/-- An accepted group is rebuilt as one record, with what the tags and the close mark say. -/
theorem rebuild_accepted {xs : List (Nat × TagClass)} {id : Nat} (h : Accepted xs id) :
    ∃ r, rebuild (groupOf (wellFormedTags xs) id) = some r ∧ r.id = id ∧ r.state = .stored ∧ r.intake = none ∧
      r.markPending = false ∧ r.markFailed = false ∧ r.jobCount = 0 ∧ r.dropped = false ∧ r.droppers = [] ∧
      r.received = r.length ∧ r.blocks = List.replicate r.length .received ∧
      r.tags = List.replicate r.extents.length .written ∧
      (∀ n t, InGroup xs id n t → r.version = t.version ∧ r.length = t.length ∧ r.extents.length = t.total ∧
        r.extents[t.position]? = some n ∧ (t.position = 0 → t.close = some (r.crc, r.cls, r.hwMin, r.hwMax))) ∧
      ∀ n ∈ r.extents, ∃ t, InGroup xs id n t := by
  obtain ⟨h1, h2, h3, m, u, h4, h5, h6, -⟩ := h
  have hp : 0 < u.total := Nat.lt_of_le_of_lt (Nat.zero_le _) (h2 m u h4)
  have one (j : Nat) (hj : j < u.total) : (tagsAt (groupOf (wellFormedTags xs) id) j).length = 1 :=
    tagsAt_one.2 (h3 m u j h4 hj)
  have at' (n : Nat) (t : TagInfo) (ht : InGroup xs id n t) :
      tagsAt (groupOf (wellFormedTags xs) id) t.position = [(n, t)] := by
    have hj : t.position < u.total := (h1 n t m u ht h4).2.2 ▸ h2 n t ht
    obtain ⟨c, hc⟩ := List.length_eq_one_iff.1 (one _ hj)
    have := mem_tagsAt.2 ⟨ht, rfl⟩
    rw [hc, List.mem_singleton] at this
    rw [hc, this]
  have hu := at' m u h4
  rw [h5] at hu
  obtain ⟨c, hc⟩ := Option.isSome_iff_exists.1 h6
  have hx : groupExtents (groupOf (wellFormedTags xs) id) u.total =
      (List.range u.total).map fun j => ((tagsAt (groupOf (wellFormedTags xs) id) j).map Prod.fst).headD 0 :=
    flatten_ones _ 0 _ fun j hj => by simpa using one j (List.mem_range.1 hj)
  have hr : rebuild (groupOf (wellFormedTags xs) id) = some
      { id := u.id, state := .stored, intake := none, cls := c.2.1, hwMin := c.2.2.1, hwMax := c.2.2.2,
        version := u.version, length := u.length, crc := c.1, blocks := List.replicate u.length .received,
        received := u.length, extents := groupExtents (groupOf (wellFormedTags xs) id) u.total,
        tags := List.replicate u.total .written, markPending := false, markFailed := false, jobCount := 0,
        checkNext := 0, checkCrc := crc32Start, dropped := false, droppers := [] } := by
    unfold rebuild
    rw [hu]
    simp only [List.head?_cons, hc, Option.map_some]
  refine ⟨_, hr, h4.2, rfl, rfl, rfl, rfl, rfl, rfl, rfl, rfl,
    rfl, by simp [hx], fun n t ht => ?_, fun n hn => ?_⟩
  · obtain ⟨a1, a2, a3⟩ := h1 n t m u ht h4
    refine ⟨a1.symm, a2.symm, by simp [hx, a3], ?_, fun h0 => ?_⟩
    · have hj : t.position < u.total := a3 ▸ h2 n t ht
      simp [hx, List.getElem?_range hj, at' n t ht]
    · have := at' n t ht
      rw [h0, hu] at this
      cases this
      exact hc
  · simp only [hx, List.mem_map, List.mem_range] at hn
    obtain ⟨j, hj, rfl⟩ := hn
    obtain ⟨⟨n, t⟩, ha⟩ := List.length_eq_one_iff.1 (one j hj)
    have : (n, t) ∈ tagsAt (groupOf (wellFormedTags xs) id) j := by simp [ha]
    exact ⟨t, by simpa [ha] using (mem_tagsAt.1 this).1⟩

/-- The ids of the accepted groups, ascending. -/
def acceptedIds (xs : List (Nat × TagClass)) : List Nat :=
  (groupIds (wellFormedTags xs)).filter fun id => groupAccepted (groupOf (wellFormedTags xs) id)

theorem acceptedIds_sorted (xs : List (Nat × TagClass)) : (acceptedIds xs).Pairwise (· < ·) :=
  (groupIds_spec _).1.filter _

theorem mem_acceptedIds {xs : List (Nat × TagClass)} {id : Nat} : id ∈ acceptedIds xs ↔ Accepted xs id := by
  rw [acceptedIds, List.mem_filter, groupAccepted_iff, (groupIds_spec _).2]
  refine ⟨fun h => h.2, fun h => ⟨?_, h⟩⟩
  obtain ⟨n, t, ht, -⟩ := h.closed
  exact ⟨(n, t), mem_wellFormedTags.2 ht.1, ht.2⟩

/-- The first 24 of an ascending list are its members with fewer than 24 members below them. -/
theorem mem_take_iff {l : List Nat} (h : l.Pairwise (· < ·)) (n id : Nat) :
    id ∈ l.take n ↔ id ∈ l ∧ ∀ m : List Nat, m.Nodup → (∀ i ∈ m, i < id ∧ i ∈ l) → m.length < n := by
  constructor
  · intro hid
    obtain ⟨k, hk, rfl⟩ := List.mem_iff_getElem.1 hid
    rw [List.length_take] at hk
    refine ⟨List.mem_of_mem_take hid, fun m hm hi => ?_⟩
    have hsub : m ⊆ l.take k := fun i hi' => by
      obtain ⟨h1, h2⟩ := hi i hi'
      obtain ⟨j, hj, rfl⟩ := List.mem_iff_getElem.1 h2
      rw [List.getElem_take] at h1
      have : j < k := by
        by_contra hc
        rcases Nat.lt_or_eq_of_le (Nat.le_of_not_lt hc) with hc | hc
        · have := List.pairwise_iff_getElem.1 h k j (by omega) hj hc
          omega
        · subst hc
          omega
      exact List.mem_iff_getElem.2 ⟨j, by simp; omega, by simp⟩
    have := (List.subperm_of_subset hm hsub).length_le
    rw [List.length_take] at this
    omega
  · rintro ⟨hid, hm⟩
    obtain ⟨k, hk, rfl⟩ := List.mem_iff_getElem.1 hid
    have hn : (l.take k).Nodup := (h.sublist (List.take_sublist _ _)).imp fun h => Nat.ne_of_lt h
    have := hm (l.take k) hn fun i hi => by
      obtain ⟨j, hj, rfl⟩ := List.mem_iff_getElem.1 hi
      rw [List.length_take] at hj
      rw [List.getElem_take]
      exact ⟨List.pairwise_iff_getElem.1 h j k (by omega) hk (by omega), List.getElem_mem _⟩
    rw [List.length_take] at this
    exact List.mem_iff_getElem.2 ⟨k, by simp; omega, by simp⟩

/-- The records rebuilt, one for each kept group, in ascending image id. -/
theorem rebuiltImages_spec (xs : List (Nat × TagClass)) :
    (rebuiltImages xs).map Image.id = (acceptedIds xs).take 24 ∧
      ∀ r ∈ rebuiltImages xs, rebuild (groupOf (wellFormedTags xs) r.id) = some r ∧ Accepted xs r.id := by
  have go (l : List Nat) (h : ∀ id ∈ l, Accepted xs id) :
      (l.filterMap fun id => rebuild (groupOf (wellFormedTags xs) id)).map Image.id = l := by
    induction l with
    | nil => rfl
    | cons id l ih =>
      obtain ⟨r, h1, h2, -⟩ := rebuild_accepted (h id (List.mem_cons_self ..))
      rw [List.filterMap_cons_some (f := fun id => rebuild (groupOf (wellFormedTags xs) id)) h1, List.map_cons, h2, ih fun i hi => h i (List.mem_cons_of_mem _ hi)]
  refine ⟨go _ fun id hid => mem_acceptedIds.1 (List.mem_of_mem_take hid), fun r hr => ?_⟩
  obtain ⟨id, h1, h2⟩ := List.mem_filterMap.1 hr
  have ha := mem_acceptedIds.1 (List.mem_of_mem_take h1)
  obtain ⟨q, h3, h4, -⟩ := rebuild_accepted ha
  rw [h3] at h2
  cases h2
  rw [h4]
  exact ⟨h3, ha⟩

/-- What a rebuilt record holds. -/
theorem rebuilt_record {xs : List (Nat × TagClass)} {r : Image} (hr : r ∈ rebuiltImages xs) :
    (r.state = .stored ∧ r.intake = none ∧ r.markPending = false ∧ r.markFailed = false ∧ r.jobCount = 0 ∧
      r.dropped = false ∧ r.droppers = [] ∧ r.received = r.length ∧ r.blocks = List.replicate r.length .received ∧
      r.tags = List.replicate r.extents.length .written) ∧
    (∀ n t, InGroup xs r.id n t → r.version = t.version ∧ r.length = t.length ∧ r.extents.length = t.total ∧
      r.extents[t.position]? = some n ∧ (t.position = 0 → t.close = some (r.crc, r.cls, r.hwMin, r.hwMax))) ∧
    ∀ n ∈ r.extents, ∃ t, InGroup xs r.id n t := by
  obtain ⟨h1, h2⟩ := (rebuiltImages_spec xs).2 r hr
  obtain ⟨q, h3, -, a1, a2, a3, a4, a5, a6, a7, a8, a9, a10, h4⟩ := rebuild_accepted h2
  rw [h1] at h3
  cases h3
  exact ⟨⟨a1, a2, a3, a4, a5, a6, a7, a8, a9, a10⟩, h4⟩

/-- The store is rebuilt as R140 says. -/
theorem rebuiltStore_rebuilt (xs : List (Nat × TagClass)) : Rebuilt xs (rebuiltStore xs) := by
  have him := (rebuiltImages_spec xs).1
  have kept (id : Nat) : (∃ r ∈ rebuiltImages xs, r.id = id) ↔ Kept xs id := by
    have : (∃ r ∈ rebuiltImages xs, r.id = id) ↔ id ∈ (rebuiltImages xs).map Image.id := by simp
    rw [this, him, mem_take_iff (acceptedIds_sorted xs)]
    simp only [mem_acceptedIds, Kept]
  have free (n : Nat) : n ∈ erasedExtents xs ↔ (n, .erased) ∈ xs := by
    simp [erasedExtents]
  have dirty (n : Nat) : n ∈ (rebuiltStore xs).dirty ↔
      (∃ c, (n, c) ∈ xs) ∧ n ∉ (rebuiltStore xs).free ∧ ∀ r ∈ (rebuiltStore xs).images, n ∉ r.extents := by
    simp [rebuiltStore]
  refine ⟨?_, kept, fun r hr => (rebuilt_record hr).1, fun r hr => (rebuilt_record hr).2.1, ⟨?_, free⟩, ⟨?_, dirty, fun n c hc hd => ?_⟩, rfl⟩
  · exact him ▸ (acceptedIds_sorted xs).sublist (List.take_sublist _ _)
  · exact (List.filter_sublist ..).map _
  · exact List.filter_sublist ..
  · rw [dirty]
    constructor
    · rintro ⟨-, hf, ho⟩
      cases c with
      | erased => exact absurd ((free n).2 hc) hf
      | broken => exact .inl rfl
      | wellFormed t =>
        refine .inr ⟨t, rfl, fun hk => ?_⟩
        obtain ⟨r, hr, hid⟩ := (kept t.id).2 hk
        exact ho r hr (List.mem_of_getElem? ((rebuilt_record hr).2.1 n t ⟨hc, hid.symm⟩).2.2.2.1)
    · intro h
      refine ⟨⟨c, hc⟩, fun hf => ?_, fun r hr hn => ?_⟩
      · rcases h with rfl | ⟨t, rfl, -⟩ <;> exact nomatch hd _ ((free n).1 hf)
      · obtain ⟨u, hu⟩ := (rebuilt_record hr).2.2 n hn
        rcases h with rfl | ⟨t, rfl, hk⟩
        · exact nomatch hd _ hu.1
        · cases hd _ hu.1
          exact hk (hu.2 ▸ (kept r.id).1 ⟨r, hr, rfl⟩)

/-- INTAKE_LOST is noted as R140 says. -/
theorem intakeLost_iff (xs : List (Nat × TagClass)) : intakeLost xs = true ↔ LacksClose xs := by
  unfold intakeLost LacksClose
  simp only [List.any_eq_true, (groupIds_spec _).2, Bool.not_eq_true', groupClosed, List.any_eq_false]
  constructor
  · rintro ⟨id, ⟨⟨n, t⟩, ht, rfl⟩, h⟩
    refine ⟨n, t, mem_wellFormedTags.1 ht, fun m u hu h0 => ?_⟩
    simpa using h (m, u) (mem_tagsAt.2 ⟨hu, h0⟩)
  · rintro ⟨n, t, ht, h⟩
    refine ⟨t.id, ⟨(n, t), mem_wellFormedTags.2 ht, rfl⟩, fun ⟨m, u⟩ hu => ?_⟩
    obtain ⟨h1, h2⟩ := mem_tagsAt.1 hu
    simp [h m u h1 h2]

end Sys2Proof.Machine
end

