-- ==== Sys2Proof/WellFormed.lean ====
section
/-!
DEFINITION. When a command's operands are ones its encoding can carry: each number within the width the Formats
chapter gives its field (R181, Tables 12.2 to 12.7), and each reply field within the range Table 1.1 gives it.
The meanings do not rely on it; it says which commands the outside world can give.
-/

namespace Sys2Proof

/-- A number that fits one byte. -/
def fits8 (n : Nat) : Bool := n < 256
/-- A number that fits two bytes. -/
def fits16 (n : Nat) : Bool := n < 65536
/-- A number that fits four bytes. -/
def fits32 (n : Nat) : Bool := n < 4294967296

/-- Major and minor fit a byte each, build two (R181). -/
def Version.wf (v : Version) : Bool := fits8 v.major && fits8 v.minor && fits16 v.build

def BankRecord.wf (b : BankRecord) : Bool := b.version.all Version.wf

def LoadingMark.wf (m : LoadingMark) : Bool := m.version.wf && fits16 m.fill

/-- The fields fit Table 12.7's widths, and the capacity is at least 1 block (R9). -/
def Ident.wf (i : Ident) : Bool :=
  fits32 i.serial && fits8 i.classCode && fits8 i.hwRev && fits16 i.capacity && decide (1 ≤ i.capacity)
    && i.bank0.wf && i.bank1.wf && i.loading.all LoadingMark.wf

def Fill.wf (f : Fill) : Bool := fits16 f.fill

def Taken.wf (t : Taken) : Bool := fits16 t.fill

/-- The fields fit, and a busy report names an activity (section 12.3). -/
def UnitReport.wf (u : UnitReport) : Bool :=
  fits16 u.busyTime && fits16 u.fill && (!u.busy || u.activity != .idle)

/-- A character begins with its start bit, which is low (R63), and a reception holds at least one (R66). -/
def Reception.wf (r : Reception) : Bool :=
  !r.chars.isEmpty && decide (r.chars.length ≤ 65536) && r.chars.all fun c => !c.bits.getLsbD 0

def ProfileArgs.wf (a : ProfileArgs) : Bool :=
  fits8 a.used && fits8 a.cls && fits8 a.burst && fits16 a.seed && fits8 a.erase && fits8 a.verify && fits8 a.boot

def RuleArgs.wf (a : RuleArgs) : Bool :=
  fits8 a.cls && fits8 a.hwMin && fits8 a.hwMax && fits16 a.imageId && fits8 a.prio && fits8 a.downgrade

def LineArgs.wf (a : LineArgs) : Bool :=
  fits8 a.rate && fits16 a.timeout && fits8 a.retry && fits8 a.openLimit && fits8 a.swapLimit && fits8 a.interval
    && fits8 a.enable

/-- The command can be given: its operands fit their encodings. -/
def Instr.wf : Instr → Bool
  | .openImage _ id cls lo hi v len _ => fits16 id && fits8 cls && fits8 lo && fits8 hi && v.wf && fits16 len
  | .writeBlock _ id block data => fits16 id && fits16 block && data.length == Config.pageBytes
  | .closeImage _ id => fits16 id
  | .dropImage _ id => fits16 id
  | .readImage _ id first => fits16 id && fits16 first
  | .setProfile _ index args => fits8 index && args.wf
  | .setRule _ position args => fits8 position && args.wf
  | .removeRule _ position => fits8 position
  | .pinUnit _ slot id prio noRetry => fits8 slot && fits16 id && fits8 prio && fits8 noRetry
  | .unpinUnit _ slot => fits8 slot
  | .releaseUnit _ slot => fits8 slot
  | .readUnit _ slot => fits8 slot
  | .readRoster _ first => fits8 first
  | .setMode _ mode => fits8 mode
  | .setDeparture _ given value => fits8 given && fits16 value
  | .setLine _ line args g => fits8 line && args.wf && fits16 g
  | .readLine _ line clear => fits8 line && fits8 clear
  | .resetLine _ line => fits8 line
  | .setTime _ value => fits32 value
  | .setEventMask _ enables => enables.length == 20 && enables.all fits8
  | .badFrame _ cycle => decide (cycle.length ≤ 65536)
  | .identReceived _ i => i.wf
  | .fillReceived _ f => f.wf
  | .takenReceived _ t => t.wf
  | .stateReceived _ u => u.wf
  | .badReply _ r => r.wf
  | .pollDue tag => decide (tag < Config.tags)
  | .activationProbeDue slot => decide (slot < Config.slots)
  | .bootTimerFirstExpiry slot => decide (slot < Config.slots)
  | .bootTimerFallbackExpiry slot => decide (slot < Config.slots)
  | .fullReset => true
  | .listImages _ => true
  | .readPlan _ => true
  | .sweepNow _ => true
  | .powerWarning _ => true
  | .readStatus _ => true
  | .readEvents _ => true
  | .saveSettings _ => true
  | .reloadSettings _ => true
  | .reset _ => true
  | .replyRead _ _ => true
  | .serviceFrameTimeout => true
  | .noReply _ => true
  | .frameSent _ => true
  | .sweepIntervalExpiry _ => true
  | .sweepProbeOverdue _ => true
  | .recoveryTimerExpiry _ => true
  | .oneSecondTick => true
  | .windowCutoff => true
  | .modeHoldExpiry => true
  | .pwrwarnAsserted => true
  | .pwrwarnCleared => true
  | .lineReadDone => true
  | .pageProgramDone _ => true
  | .tagProgramDone _ => true
  | .closeCheckReadDone => true
  | .closeMarkProgramDone _ => true
  | .dropMarkProgramDone _ => true
  | .backgroundEraseDone _ => true
  | .eraseSuspended => true
  | .settingsEraseDone _ => true
  | .settingsPageProgramDone _ => true
  | .settingsReadDone => true
  | .tagReadDone => true
  | .flashOperationLimit => true
  | .recoveryHoldEnd => true
  | .pwrwarnSample _ => true
  | .interframeGapEnd _ => true
  | .serviceReplySent => true

end Sys2Proof
end

