-- ==== Sys2Proof/Tests/Slice0.lean ====
section
/-!
SUPPORT. Tests of the model: operands that WellFormed refuses, frames written out from the Formats chapter and what they
decode to, the manual's worked numbers, one step of many commands, and for each obligation with hypotheses a concrete state
that meets them. The check values in the frames were computed outside the model.
-/

namespace Sys2Proof.Tests

open Sys2Proof Sys2Proof.Machine

set_option Elab.async false

/-! ### Operands that no encoding carries -/

theorem test_wf_image_id : (Instr.closeImage .Y 65536).wf = false ∧ (Instr.closeImage .Y 65535).wf = true := by decide
theorem test_wf_drop_id : (Instr.dropImage .Y 65536).wf = false := by decide
theorem test_wf_open_class : (Instr.openImage .Y 1 256 0 0 ⟨1, 0, 0⟩ 1 0).wf = false := by decide
theorem test_wf_open_build : (Instr.openImage .Y 1 1 0 0 ⟨1, 0, 65536⟩ 1 0).wf = false := by decide
theorem test_wf_block_bytes : (Instr.writeBlock .Y 1 0 (List.replicate 255 0)).wf = false := by decide +kernel
theorem test_wf_read_image : (Instr.readImage .Y 1 65536).wf = false := by decide
theorem test_wf_profile : (Instr.setProfile .Y 0 ⟨1, 0, 1, 65536, 0, 0, 5⟩).wf = false := by decide
theorem test_wf_rule : (Instr.setRule .Y 0 ⟨0, 0, 256, 1, 0, 0⟩).wf = false := by decide
theorem test_wf_rule_position : (Instr.removeRule .Y 256).wf = false := by decide
theorem test_wf_pin : (Instr.pinUnit .S 0 1 256 0).wf = false := by decide
theorem test_wf_slots : (Instr.unpinUnit .S 256).wf = false ∧ (Instr.releaseUnit .S 256).wf = false ∧
    (Instr.readUnit .S 256).wf = false ∧ (Instr.readRoster .S 256).wf = false := by decide
theorem test_wf_mode : (Instr.setMode .V 256).wf = false := by decide
theorem test_wf_departure : (Instr.setDeparture .V 1 65536).wf = false := by decide
theorem test_wf_line : (Instr.setLine .Y 0 ⟨1, 65536, 3, 4, 2, 1, 1⟩ 300).wf = false := by decide
theorem test_wf_guard : (Instr.setLine .Y 0 ⟨1, 1000, 3, 4, 2, 1, 1⟩ 65536).wf = false := by decide
theorem test_wf_read_line : (Instr.readLine .Y 0 256).wf = false ∧ (Instr.resetLine .Y 256).wf = false := by decide
theorem test_wf_time : (Instr.setTime .Y 4294967296).wf = false := by decide
theorem test_wf_mask : (Instr.setEventMask .Y (List.replicate 19 1)).wf = false := by decide
theorem test_wf_cycle : (Instr.badFrame .Y (List.replicate 65537 0)).wf = false := by decide +kernel
theorem test_wf_reception : (Instr.badReply .A ⟨List.replicate 65537 ⟨0, false, false⟩⟩).wf = false ∧
    (Instr.badReply .A ⟨[]⟩).wf = false := by decide +kernel
/-- A character begins with a low start bit (R63). -/
theorem test_wf_start_bit : (Instr.badReply .A ⟨[⟨1, false, false⟩]⟩).wf = false ∧
    (Instr.badReply .A ⟨[⟨0, false, false⟩]⟩).wf = true := by decide
theorem test_wf_capacity : (Instr.identReceived .A ⟨1, 1, 1, 0, ⟨none, false⟩, ⟨none, false⟩, .b0, false, none⟩).wf = false := by
  decide
theorem test_wf_mark : (Instr.identReceived .A
    ⟨1, 1, 1, 1, ⟨none, false⟩, ⟨none, false⟩, .b0, false, some ⟨⟨1, 0, 0⟩, 0, 65536⟩⟩).wf = false := by decide
theorem test_wf_fill : (Instr.fillReceived .A ⟨65536, false, .accepted, .fresh⟩).wf = false := by decide
theorem test_wf_taken : (Instr.takenReceived .A ⟨65536, false, .block⟩).wf = false := by decide
theorem test_wf_state_activity : (Instr.stateReceived .A ⟨true, .idle, 0, 0, .noResult, .noFault⟩).wf = false := by decide
theorem test_wf_tag : (Instr.pollDue 24).wf = false ∧ (Instr.pollDue 23).wf = true := by decide
theorem test_wf_timer_slots : (Instr.activationProbeDue 32).wf = false ∧ (Instr.bootTimerFirstExpiry 32).wf = false ∧
    (Instr.bootTimerFallbackExpiry 32).wf = false := by decide

/-! ### Check values and frames, from chapter 12 -/

/-- The generators of R179 and R180 over the nine characters "123456789", whose check values are well known. -/
theorem test_crc16_check : crc16 [0x31, 0x32, 0x33, 0x34, 0x35, 0x36, 0x37, 0x38, 0x39] = 0x29B1 := by decide +kernel
theorem test_crc32_check : crc32 [0x31, 0x32, 0x33, 0x34, 0x35, 0x36, 0x37, 0x38, 0x39] = 0xCBF43926 := by decide +kernel

/-- OPEN IMAGE, code 0x01: id 0x0102, class 5, hardware 1 to 9, version 2.3.0x0405, length 6, CRC-32 0x0A0B0C0D. -/
theorem test_decode_open_image : decodeOrder .Y [0x00, 0x14, 0x01, 0x01, 0x02, 0x05, 0x01, 0x09, 0x02, 0x03, 0x04, 0x05, 0x00, 0x06, 0x0A, 0x0B, 0x0C, 0x0D, 0x95, 0x5F] = .ok (.openImage .Y 0x102 5 1 9 ⟨2, 3, 0x405⟩ 6 0x0A0B0C0D) := by decide +kernel

/-- CLOSE IMAGE, code 0x03: id 7. -/
theorem test_decode_close_image : decodeOrder .S [0x00, 0x07, 0x03, 0x00, 0x07, 0x69, 0x96] = .ok (.closeImage .S 7) := by decide +kernel

/-- SET PROFILE, code 0x07: index 3, used, class 9, burst 4, seed 500, erase 20, verify 10, boot 60. -/
theorem test_decode_set_profile : decodeOrder .Y [0x00, 0x0E, 0x07, 0x03, 0x01, 0x09, 0x04, 0x01, 0xF4, 0x14, 0x0A, 0x3C, 0xF4, 0xD9] = .ok (.setProfile .Y 3 ⟨1, 9, 4, 500, 20, 10, 60⟩) := by decide +kernel

/-- SET RULE, code 0x08: position 2, class 12, hardware 0 to 9, image 88, class 1, no downgrade. -/
theorem test_decode_set_rule : decodeOrder .Y [0x00, 0x0D, 0x08, 0x02, 0x0C, 0x00, 0x09, 0x00, 0x58, 0x01, 0x00, 0xC4, 0x24] = .ok (.setRule .Y 2 ⟨12, 0, 9, 88, 1, 0⟩) := by decide +kernel

/-- PIN UNIT, code 0x0B: slot 31, image 0x0203, priority class 1, no retry. -/
theorem test_decode_pin_unit : decodeOrder .S [0x00, 0x0A, 0x0B, 0x1F, 0x02, 0x03, 0x01, 0x01, 0xF7, 0x59] = .ok (.pinUnit .S 31 0x203 1 1) := by decide +kernel

/-- SET DEPARTURE, code 0x12: a value of 900 s is given. -/
theorem test_decode_set_departure : decodeOrder .V [0x00, 0x08, 0x12, 0x01, 0x03, 0x84, 0x49, 0x9D] = .ok (.setDeparture .V 1 900) := by decide +kernel

/-- SET LINE, code 0x14: line B, the factory settings of Table 4.6, guard 300. -/
theorem test_decode_set_line : decodeOrder .Y [0x00, 0x10, 0x14, 0x01, 0x01, 0x03, 0xE8, 0x03, 0x04, 0x02, 0x01, 0x01, 0x01, 0x2C, 0x7C, 0x0A] = .ok (.setLine .Y 1 ⟨1, 1000, 3, 4, 2, 1, 1⟩ 300) := by decide +kernel

/-- READ STATUS, code 0x18, no parameters: the shortest frame, 5 bytes. -/
theorem test_decode_read_status : decodeOrder .V [0x00, 0x05, 0x18, 0xA0, 0x50] = .ok (.readStatus .V) := by decide +kernel

/-- RESET, code 0x1D, the highest code. -/
theorem test_decode_reset : decodeOrder .Y [0x00, 0x05, 0x1D, 0xF0, 0xF5] = .ok (.reset .Y) := by decide +kernel

/-- A code past the last, 0x1E, is BAD_ORDER (Table 12.2, R162). -/
theorem test_decode_bad_order : decodeOrder .Y [0x00, 0x05, 0x1E, 0xC0, 0x96] = .error .badOrder := by decide +kernel

/-- One bit of the CRC-16 wrong is BAD_FRAME (R162). -/
theorem test_decode_bad_crc : decodeOrder .Y [0x00, 0x05, 0x18, 0xA0, 0x51] = .error .badFrame := by decide +kernel

/-- A CLOSE IMAGE one byte too long for its order is BAD_FRAME, its CRC-16 right (R162). -/
theorem test_decode_wrong_parameters : decodeOrder .Y [0x00, 0x08, 0x03, 0x00, 0x07, 0x00, 0x0E, 0x76] = .error .badFrame := by decide +kernel

/-- The payload of an IDENT by Table 12.7: both banks hold a version, bank 1 not valid and running, a loading mark. -/
theorem test_ident_payload : replyOf [0, 1, 2, 3, 12, 7, 4, 0, 1, 2, 0, 3, 4, 5, 0, 6, 0b0111, 0b01, 1, 9, 8, 0, 7, 0xDE, 0xAD,
    0xBE, 0xEF, 0, 33] 0x81 = some (.ident
      { serial := 66051, classCode := 12, hwRev := 7, capacity := 1024, bank0 := ⟨some ⟨1, 2, 3⟩, true⟩
        bank1 := ⟨some ⟨4, 5, 6⟩, false⟩, running := .b1, bootFault := false
        loading := some ⟨⟨9, 8, 7⟩, 0xDEADBEEF, 33⟩ }) := by decide +kernel

/-- The payloads of FILL, TAKEN and STATE by Table 12.7, and a refusal field outside its values. -/
theorem test_other_payloads :
    replyOf [1, 0, 1, 0, 1] 0x82 = some (.fill ⟨256, true, .accepted, .resume⟩) ∧
    replyOf [0, 4, 0, 5] 0x83 = some (.taken ⟨4, false, .check⟩) ∧
    replyOf [1, 2, 0, 0xB4, 0, 4, 0, 0] 0x84 = some (.state ⟨true, .program, 180, 4, .noResult, .noFault⟩) ∧
    replyOf [0, 0, 0, 3, 0] 0x82 = none := by decide +kernel

/-- The reply frame DONE without data: 5 bytes, status 0x00 (Tables 12.1 and 12.3). -/
theorem test_reply_frame : replyFrame ⟨.done, .empty⟩ = [0x00, 0x05, 0x00, 0x33, 0x69] := by decide +kernel

/-- Table 5.1: the estimate through six samples, and the following one. -/
theorem test_samples : newEstimate 180 260 = 190 ∧ newEstimate 190 100 = 179 ∧ newEstimate 179 172 = 179 ∧
    newEstimate 179 65535 = 8349 ∧ newEstimate 8349 65535 = 15498 ∧ newEstimate 15498 65535 = 20000 ∧
    newEstimate 20000 172 = 17522 := by decide

/-- Section 5.7: the ordinary job takes 19607 ms, and 13607 ms without the erase allowance. -/
theorem test_job_estimate : burstCost (divider 1) 4 1000 180 = 46426 ∧
    jobEstimate (divider 1) 4 1000 180 1000 (some 6) 2 = 19607 ∧
    jobEstimate (divider 1) 4 1000 180 1000 none 2 = 13607 := by decide

/-- The character of 0x31, from the stop bit down to the start bit: 1, parity 1, 00110001, 0 (R63). -/
theorem test_character : charBits 0x31 = 0b11001100010#11 := by decide

/-- Every byte is read back from its character, with its parity and stop bit right (R63). -/
theorem test_characters_read_back : ∀ b : Byte,
    charData (charBits b) = b ∧ charParityBad (charBits b) = false ∧ charStopLow (charBits b) = false := by decide +kernel

/-! ### A part at work -/

def v1 : Version := ⟨1, 0, 0⟩
def v2 : Version := ⟨2, 0, 0⟩

/-- A line engine with the factory settings and nothing due. -/
def calmLine : LineEngine := { resetLineEngine with fullDue := false, startSweep := false }

/-- A unit at address 1 of line A that runs version 1, with image 1 as its target. -/
def sampleUnit (st : UpdateState) : Entry :=
  { line := .A, address := 1, serial := 100, classCode := 1, hwRev := 1, capacity := 100, bank0 := ⟨some v1, true⟩
    bank1 := ⟨none, false⟩, running := .b0, bootFault := false, loading := none, presence := .present, missed := 0
    profile := 0, estimate := 180, target := some ⟨1, v2, 0, .plan, false⟩, note := .noNote, yardPin := none
    servicePin := none, state := st, failCount := 0, prior := none, bootTimer := none, probeDue := none, revert := .idle
    history := [], refused := none, owed := false }

/-- Image 1, STORED: three blocks for class 1. -/
def storedImage : Image :=
  { id := 1, state := .stored, intake := none, cls := 1, hwMin := 0, hwMax := 9, version := v2, length := 3, crc := 0
    blocks := [.received, .received, .received], received := 3, extents := [10], tags := [.written], markPending := false
    markFailed := false, jobCount := 1, checkNext := 0, checkCrc := 0, dropped := false, droppers := [] }

/-- Image 2, which the Yard port is taking in: two blocks, the second MISSING. -/
def intakeImage : Image :=
  { id := 2, state := .receiving, intake := some .Y, cls := 1, hwMin := 0, hwMax := 9, version := v2, length := 2, crc := 0
    blocks := [.received, .missing], received := 1, extents := [20], tags := [.written], markPending := false
    markFailed := false, jobCount := 0, checkNext := 0, checkCrc := 0, dropped := false, droppers := [] }

/-- The job of the sample unit. -/
def sampleJob (st : JobState) : Job :=
  { slot := 0, serial := 100, imageId := 1, prio := 0, noRetry := false, state := st, next := 1, wait := none
    deferred := false, everOpened := true, parking := false, retriesUsed := 0, pollDue := none, busyElapsed := 0
    busyLimit := 2880 }

/-- The part in YARD with the sample unit LOADING, its job open, and 70 extents free. -/
def base : State :=
  { State.reset with
    veh := { mode := .yard, hold := some 300000, cause := none, asserted := false, run := 0 }
    startup := { stage := .running, intakeLost := false, loadFailed := false, scanned := [] }
    roster := State.reset.roster.set 0 (some (sampleUnit .loading))
    rules := [⟨1, 0, 9, 1, 0, false⟩]
    jobs := State.reset.jobs.set 0 (some (sampleJob .starting))
    lineA := { calmLine with openSet := [0] }
    lineB := calmLine
    store := { images := [storedImage, intakeImage], free := (List.range 70).map (· + 100), dirty := [], bad := [] }
    eng := { resetEngine with hold := false }
    settings := { op := .idle, snapshot := [] } }

def State.withVeh (s : State) (m : Mode) (h : Option Nat) (c : Option HaltCause) (a : Bool) (r : Nat) : State :=
  { s with veh := { mode := m, hold := h, cause := c, asserted := a, run := r } }

/-- The part in HALTED by an order. -/
def stopped : State := State.withVeh base .halted none (some .order) false 0
/-- The part in QUIET. -/
def quietPart : State := State.withVeh base .quiet (some 5) none false 0
/-- The part in its start-up phase, the settings being read. -/
def startingPart : State :=
  { base with
    startup := { stage := .load, intakeLost := false, loadFailed := false, scanned := [] }
    settings := { op := .loading, snapshot := [] } }
/-- A RESET stands on the Yard port. -/
def armedPart : State := base.modPort .Y fun q => { q with slot := some .reset, reply := some ⟨.accepted, .empty⟩ }
/-- The flash is erasing an extent, with the count of one suspension. -/
def erasing : State := base.modEng fun f => { f with op := some (.erase 50) }

def withEntry (s : State) (e : Entry) : State := s.setEntry 0 (some e)
def withJob (s : State) (j : Job) : State := s.setJob 0 (some j)
def withImage (s : State) (r : Image) : State := s.modImage r.id fun _ => r
def withLine (s : State) (f : LineEngine → LineEngine) : State := s.modLine .A f
def withOp (s : State) (op : FlashOp) : State := s.modEng fun f => { f with op := some op }

/-- The sample unit HELD, with no job. -/
def heldPart : State :=
  { withLine (withEntry (base.setJob 0 none) { sampleUnit .held with failCount := 3, target := none })
      (fun q => { q with openSet := [] }) with heldSerials := [100] }

/-- An exchange of line A with the sample unit. -/
def talk (p : Purpose) (ph : Phase) (retries : Nat) : Exchange :=
  { purpose := p, address := 1, serial := 100, rate := 1, timeout := 1000, limit := 3, retries := retries, phase := ph
    framesOut := true }

/-- A state with that exchange in flight. -/
def talking (s : State) (p : Purpose) (ph : Phase) (retries : Nat) : State :=
  withLine s fun q => { q with exchange := some (talk p ph retries), quiet := false }

/-- A check of the state after a command. -/
def afterIs (c : Instr) (s : State) (f : State → Bool) : Bool :=
  match exec c s with
  | .next t => f t
  | .fault _ => false
  | .refused _ => false

/-- The status of a port's reply after a command. -/
def answers (c : Instr) (s : State) (p : Port) : Option Status :=
  match exec c s with
  | .next t => (t.port p).reply.map Reply.status
  | .fault _ => none
  | .refused _ => none

def sampleIdent : Ident :=
  { serial := 100, classCode := 1, hwRev := 1, capacity := 100, bank0 := ⟨some v1, true⟩, bank1 := ⟨none, false⟩, running := .b0
    bootFault := false, loading := none }

/-! ### One step of a command -/

theorem test_full_reset_keeps_queue :
    afterIs .fullReset { base with pending := [.oneSecondTick] } (fun t => t.pending == [.oneSecondTick] && t.eng.hold) := by
  decide +kernel
theorem test_open_image_takes_extents : afterIs (.openImage .S 9 1 0 9 v2 16 0) base fun t =>
    t.store.free.length == 68 && (t.port .S).reply == some ⟨.done, .count 2⟩ := by decide +kernel
/-- An image of 4080 blocks needs 272 extents: NO_ROOM, and one block more is RANGE (R127). -/
theorem test_open_image_refused : answers (.openImage .S 9 1 0 9 v2 4080 0) base .S = some .noRoom ∧
    answers (.openImage .S 9 1 0 9 v2 4081 0) base .S = some .range ∧
    answers (.openImage .S 1 1 0 9 v2 1 0) base .S = some .exists ∧
    answers (.openImage .Y 9 1 0 9 v2 1 0) base .Y = some .busy := by decide +kernel
theorem test_write_block : answers (.writeBlock .Y 2 1 []) base .Y = some .pending ∧
    answers (.writeBlock .Y 2 0 []) base .Y = some .blockWritten ∧ answers (.writeBlock .Y 2 2 []) base .Y = some .range ∧
    answers (.writeBlock .S 2 1 []) base .S = some .denied := by decide +kernel
theorem test_close_image_incomplete : answers (.closeImage .Y 2) base .Y = some .incomplete := by decide +kernel
theorem test_drop_intake : afterIs (.dropImage .S 2) base fun t => t.image 2 == none && t.store.dirty == [20] := by
  decide +kernel
/-- A STORED image in use becomes RETIRING and its drop mark is programmed at byte 128 of its first extent (R136). -/
theorem test_drop_stored : afterIs (.dropImage .Y 1) base fun t =>
    (t.image 1).any (fun r => r.state == .retiring) &&
      (match t.eng.op with
        | some (.program p) => p.addr == 10 * 4096 + 128 && p.bytes == [0, 0]
        | _ => false) := by decide +kernel
theorem test_list_images : afterIs (.listImages .Y) base fun t =>
    match (t.port .Y).reply with
    | some ⟨.done, .images 70 0 0 [a, b]⟩ => a.id == 1 && b.received == 1
    | _ => false := by decide +kernel
theorem test_read_image_missing : afterIs (.readImage .S 2 0) base fun t =>
    match (t.port .S).reply with
    | some ⟨.done, .image r⟩ => r.missing == [1] && r.extents == [20]
    | _ => false := by decide +kernel
/-- A burst of 7 is stored as 4, a boot timeout of 0 as 5 s (R22). -/
theorem test_set_profile : afterIs (.setProfile .Y 3 ⟨1, 9, 7, 0, 1, 1, 0⟩) base fun t =>
    t.profile 3 == ⟨true, 9, 4, 1, 1, 1, 5⟩ := by decide +kernel
/-- A position past the end appends, and the reply carries the place (R25). -/
theorem test_set_rule_appends : afterIs (.setRule .Y 9 ⟨2, 0, 3, 7, 3, 1⟩) base fun t =>
    t.rules == [⟨1, 0, 9, 1, 0, false⟩, ⟨2, 0, 3, 7, 3, true⟩] && (t.port .Y).reply == some ⟨.done, .position 1⟩ := by
  decide +kernel
/-- Without its rule the LOADING unit has no target, and its job is gone (R26, R36, R37). -/
theorem test_remove_rule : afterIs (.removeRule .Y 0) base fun t =>
    t.rules == [] && (t.entry 0).any (fun e => e.state == .inStep && e.note == .noRule) && t.job 0 == none := by
  decide +kernel
theorem test_pin_overrides : afterIs (.pinUnit .S 0 5 0 0) base fun t =>
    (t.entry 0).any (fun e => e.note == .noRule && e.servicePin == some ⟨5, 0, false⟩) &&
      t.servicePins == [⟨100, ⟨5, 0, false⟩⟩] := by decide +kernel
theorem test_release_on_yard : answers (.releaseUnit .Y 0) base .Y = some .denied := by decide +kernel
/-- A released unit is PENDING again, and in YARD its job is opened at once (R19, R44, R46). -/
theorem test_release : afterIs (.releaseUnit .S 0)
    heldPart (fun t => t.heldSerials == [] && (t.entry 0).any fun e => e.failCount == 0 && e.state == .loading) := by
  decide +kernel
theorem test_read_roster_tail : afterIs (.readRoster .V 31) base fun t =>
    (t.port .V).reply == some ⟨.done, .roster [none]⟩ := by decide +kernel
theorem test_sweep_now : afterIs (.sweepNow .Y) base fun t =>
    (t.port .Y).slot == some (.sweepNow .outstanding .outstanding) && (t.line .B).sweep.any fun w => w.cursor == 1 := by
  decide +kernel
theorem test_set_mode_quiet : afterIs (.setMode .V 2) base fun t =>
    t.veh == { mode := .quiet, hold := some 300000, cause := none, asserted := false, run := 0 } := by decide +kernel
/-- Leaving YARD for IN_SERVICE parks the job of a READY unit (R155, R54). -/
theorem test_set_mode_in_service : afterIs (.setMode .V 0) (withJob base (sampleJob .ready)) fun t =>
    t.lineA.openSet == [] && t.lineA.queue0 == [0] && t.veh.hold == none := by decide +kernel
theorem test_departure_and_tick : afterIs (.setDeparture .V 1 900) base (fun t =>
    t.time.countdown == none && afterIs .oneSecondTick t fun u => u.time.countdown == some 900) := by decide +kernel
theorem test_power_warning : afterIs (.powerWarning .V) base fun t =>
    t.veh.mode == .halted && t.veh.cause == some .order && t.eng.hold := by decide +kernel
/-- A timeout of 1290 us is stored as 1200, an open limit of 9 as 4 (R85, Table 4.6). -/
theorem test_set_line_clamps : afterIs (.setLine .Y 1 ⟨7, 1290, 9, 9, 0, 9, 1⟩ 4000) base fun t =>
    t.lineB.settings == ⟨3, 1200, 7, 4, 1, 3, true⟩ && t.guardTime == 3600 := by decide +kernel
theorem test_read_line_clears : afterIs (.readLine .Y 0 1)
    (withLine base fun q => { q with stats := { q.stats with retries := 7 } }) fun t =>
      t.lineA.stats == zeroStats &&
        (match (t.port .Y).reply with
          | some ⟨.done, .line r⟩ => r.stats.retries == 7
          | _ => false) := by decide +kernel
theorem test_reset_line : afterIs (.resetLine .S 0) (withLine base fun q => { q with state := .faulted, run := 4 }) fun t =>
    t.lineA.state == .active && t.lineA.run == 0 && t.lineA.sweep.isSome := by decide +kernel
theorem test_set_time : afterIs (.setTime .Y 4294967295) base fun t =>
    t.time.depotSet && afterIs .oneSecondTick t fun u => u.time.depotTime == 0 := by decide +kernel
theorem test_read_status_while_starting : answers (.readStatus .Y) startingPart .Y = some .done ∧
    answers (.readEvents .Y) startingPart .Y = some .starting := by decide +kernel
theorem test_read_events : afterIs (.readEvents .V) (base.post (.unitHeld 3)) fun t =>
    !(t.port .V).attention && (t.port .Y).attention := by decide +kernel
theorem test_event_mask : afterIs (.setEventMask .Y (List.replicate 20 0)) (base.post (.unitHeld 3)) fun t =>
    !(t.port .Y).attention := by decide +kernel
theorem test_save_settings : afterIs (.saveSettings .Y) base fun t =>
    t.eng.op == some .settingsErase && t.settings.snapshot.length == 1024 := by decide +kernel
theorem test_reload_busy : answers (.reloadSettings .Y) (base.modPort .Y fun q => { q with slot := some .saveSettings }) .Y =
    some .busy := by decide +kernel
/-- The read that delivers a RESET's ACCEPTED makes the full reset; one byte short of the frame's 5 does not (R166). -/
theorem test_reset_on_read : afterIs (.replyRead .Y 5) armedPart (fun t => t.startup.stage == .deviceReset) ∧
    afterIs (.replyRead .Y 4) armedPart (fun t => t.startup.stage == .running) := by decide +kernel
/-- READ STATUS as bytes on each port, and a broken check value (R160, R162). -/
theorem test_frames_on_ports : answers (.badFrame .V [0x00, 0x05, 0x18, 0xA0, 0x50]) base .V = some .done ∧
    answers (.badFrame .Y [0x01, 0x00, 0x05, 0x18, 0xA0, 0x50]) base .Y = some .done ∧
    answers (.badFrame .S [0x00, 0x05, 0x18, 0xA0, 0x50]) base .S = some .done ∧
    answers (.badFrame .V [0x00, 0x05, 0x18, 0xA0, 0x51]) base .V = some .badFrame := by decide +kernel
theorem test_partial_frame : afterIs (.badFrame .S [0x00, 0x05, 0x18]) base fun t =>
    t.portS.order == [0x00, 0x05, 0x18] && afterIs .serviceFrameTimeout t fun u => u.portS.order == [] := by decide +kernel
theorem test_service_reply_sent : afterIs (.readStatus .S) base fun t =>
    t.portS.sending.isSome && !t.portS.delivered &&
      afterIs .serviceReplySent t fun u => u.portS.sending == none && u.portS.delivered := by decide +kernel
/-- A unit that answers a full sweep at a free address takes the lowest free slot (R6). -/
theorem test_ident_new_unit : afterIs (.identReceived .A { sampleIdent with serial := 7 })
    (withLine (talking base .fullProbe .awaiting 0) fun q =>
      { q with exchange := q.exchange.map fun x => { x with address := 47 } }) fun t =>
    (t.entry 1).any fun e => e.serial == 7 && e.address == 47 && e.presence == .present := by decide +kernel
/-- The burst of blocks 1 and 2 taken whole: the unit programs, and the job is RELEASED for 180 ticks (R49, R72). -/
theorem test_taken_burst : afterIs (.takenReceived .A ⟨3, true, .block⟩) (talking base (.burst 0 1 2) .awaiting 0) fun t =>
    (t.job 0).any fun j => j.next == 3 && j.state == .released && j.pollDue == some 180 && j.busyLimit == 2880 := by
  decide +kernel
theorem test_taken_swap : afterIs (.takenReceived .A ⟨0, false, .swap⟩)
    (talking (withEntry quietPart (sampleUnit .staged)) (.swap 0) .awaiting 0) fun t =>
      (t.entry 0).any fun e => e.state == .switching && e.prior == some v1 && e.bootTimer == some ⟨60, .first, false⟩ := by
  decide +kernel
theorem test_fill_refused_resume : afterIs (.fillReceived .A ⟨0, false, .refused, .resume⟩)
    (talking base (.load 0 .resume) .awaiting 0) fun t =>
      t.lineA.exchange.any fun x => x.purpose == .load 0 .fresh := by decide +kernel
/-- A burst's busy time of 260 ticks moves the estimate from 180 to 190 (R90, Table 5.1). -/
theorem test_state_sample : afterIs (.stateReceived .A ⟨false, .program, 260, 1, .noResult, .noFault⟩)
    (talking (withJob base { sampleJob .released with wait := some .burst }) (.poll 0) .awaiting 0) fun t =>
      (t.entry 0).any fun e => e.estimate == 190 := by decide +kernel
/-- A check passed stages the unit with the image's version in its inactive bank (R53). -/
theorem test_state_pass : afterIs (.stateReceived .A ⟨false, .check, 0, 3, .pass, .noFault⟩)
    (talking (withJob base { sampleJob .verifying with next := 3 }) (.poll 0) .awaiting 0) fun t =>
      (t.entry 0).any (fun e => e.state == .staged && e.bank1 == ⟨some v2, true⟩) && t.job 0 == none := by decide +kernel
theorem test_no_reply_retries : afterIs (.noReply .A) (talking base (.poll 0) .awaiting 0) fun t =>
    t.lineA.stats.noReplies == 1 && t.lineA.stats.retries == 1 && t.lineA.exchange.any fun x => x.retries == 1 := by
  decide +kernel
/-- A reception with a parity error counts as that, whatever else is wrong with it (R67). -/
theorem test_bad_reply_parity : afterIs (.badReply .A ⟨[⟨0b00000000010, false, false⟩]⟩)
    (talking base (.poll 0) .awaiting 0) fun t =>
      t.lineA.stats.parityErrors == 1 && t.lineA.stats.framingErrors == 0 := by decide +kernel
/-- Bytes as the characters that carry them, with no gap before any. -/
def wireChars (bytes : List Byte) : List RxChar := bytes.map fun b => ⟨charBits b, false, false⟩
/-- A whole STATE frame: what follows its end is discarded, and a gap within it breaks it (R64). -/
def stateFrame : List RxChar := wireChars [1, 0x84, 0, 0, 8, 1, 2, 0, 0xB4, 0, 1, 0, 0, 0x54, 0xdd]
theorem test_frame_ends_at_its_length :
    afterIs (.badReply .A ⟨stateFrame ++ [⟨0, false, false⟩]⟩) (talking base (.poll 0) .awaiting 0) (fun t =>
      t.lineA.stats.goodReplies == 1 && t.lineA.stats.framingErrors == 0) ∧
    afterIs (.badReply .A ⟨stateFrame.take 9 ++ ⟨charBits 0, false, true⟩ :: stateFrame.drop 10⟩)
      (talking base (.poll 0) .awaiting 0) (fun t => t.lineA.stats.framingErrors == 1) := by decide +kernel
/-- The fourth failure in a row faults the line (R78). -/
theorem test_fourth_failure : afterIs (.noReply .A)
    (withLine (talking base (.poll 0) .awaiting 3) fun q => { q with run := 3 }) fun t =>
      t.lineA.state == .faulted && t.lineA.run == 4 && t.lineA.openSet == [] && t.lineA.recoveryTimer == some 50000 := by
  decide +kernel
theorem test_frame_sent : afterIs (.frameSent .A) (talking base (.burst 0 0 2) (.sending 0) 0) fun t =>
    t.lineA.exchange.any fun x => x.phase == .between 1 := by decide +kernel
theorem test_gap_end : afterIs (.interframeGapEnd .A) (talking base (.burst 0 0 2) (.between 1) 0) fun t =>
    t.lineA.exchange.any (fun x => x.phase == .sending 1) && t.lineA.stats.framesSent == 1 := by decide +kernel
theorem test_poll_due : afterIs (.pollDue 0) (withJob base { sampleJob .released with wait := some .burst, pollDue := some 180 })
    fun t => t.now == 180 && t.lineA.exchange.any fun x => x.purpose == .poll 0 && x.phase == .sending 0 := by decide +kernel
theorem test_boot_timer_first : afterIs (.bootTimerFirstExpiry 0)
    (withEntry base { sampleUnit .switching with bootTimer := some ⟨0, .first, false⟩ }) fun t =>
      (t.entry 0).any fun e => e.state == .fallback && e.failCount == 1 && e.bootTimer == some ⟨60, .second, false⟩ := by
  decide +kernel
theorem test_boot_timer_fallback : afterIs (.bootTimerFallbackExpiry 0)
    (withEntry base { sampleUnit .fallback with bootTimer := some ⟨0, .second, false⟩ }) fun t =>
      t.heldSerials == [100] && (t.entry 0).any fun e => e.state == .held && e.history == [⟨v2, 0, .lost⟩] := by
  decide +kernel
theorem test_mode_hold_expiry : afterIs .modeHoldExpiry base fun t => t.veh.mode == .inService && t.now == 300000 := by
  decide +kernel
theorem test_third_sample : afterIs (.pwrwarnSample true) (State.withVeh base .yard (some 9) none false 2) (fun t =>
    t.veh == { mode := .halted, hold := none, cause := some .pin, asserted := true, run := 0 }) ∧
    afterIs (.pwrwarnSample true) (State.withVeh base .yard (some 9) none false 1) (fun t =>
      t.veh == { mode := .yard, hold := some 8, cause := none, asserted := false, run := 2 }) := by decide +kernel
theorem test_page_program_done : afterIs (.pageProgramDone true)
    (withOp base (.program ⟨2, 0, 20, .block 1 ⟨.Y, 0⟩, 20 * 4096 + 512, [0xAB], true⟩)) fun t =>
      flashRead t.flash (20 * 4096 + 512) == 0xAB && (t.image 2).any fun r => r.received == 2 := by decide +kernel
theorem test_page_program_failed : afterIs (.pageProgramDone false)
    (withOp base (.program ⟨2, 0, 20, .block 1 ⟨.Y, 0⟩, 20 * 4096 + 512, [0xAB], true⟩)) fun t =>
      t.store.bad == [20] && (t.image 2).any fun r => r.state == .damaged := by decide +kernel
theorem test_erase_done : afterIs (.backgroundEraseDone true) erasing fun t => t.store.free.getLast? == some 50 := by
  decide +kernel
theorem test_erase_suspended : afterIs .eraseSuspended (erasing.modEng fun f =>
    { f with suspending := true, readA := some ⟨0, 1, 0, 1⟩ }) fun t =>
      t.eng.suspended == some (.erase 50) && t.eng.suspCount == 1 && t.eng.op == some (.lineRead .A ⟨0, 1, 0, 1⟩ true) := by
  decide +kernel
/-- After the device reset the settings read begins, and an erased record gives the factory defaults (R177, R174). -/
theorem test_start_up : afterIs .recoveryHoldEnd State.reset (fun t => t.eng.op == some .settingsRead &&
    afterIs .settingsReadDone t fun u => u.eng.op == some (.tagRead 1) && u.startup.loadFailed) := by decide +kernel
theorem test_close_mark_done : afterIs (.closeMarkProgramDone true)
    (withOp (withImage base { intakeImage with state := .checking, markPending := true })
      (.program ⟨2, 0, 20, .closeMark, 20 * 4096 + 64, [1], true⟩)) fun t =>
        (t.image 2).any fun r => r.state == .stored && r.intake == none := by decide +kernel
theorem test_hold_end : afterIs .recoveryHoldEnd (erasing.modEng fun f =>
    { f with hold := true, op := none, class5 := some 50 }) fun t => t.eng.op == some (.erase 50) := by decide +kernel

/-! ### States that meet the hypotheses of the obligations -/

/-- The sample unit STAGED in QUIET, a SWAP waiting for its gap. -/
def swapping : State :=
  talking (withEntry quietPart { sampleUnit .staged with bank1 := ⟨some v2, true⟩ }) (.swap 0) .gap 0

theorem witness_StepTakesTheFrontCommand :
    ({ base with pending := [.oneSecondTick, .windowCutoff] }).pending = .oneSecondTick :: [.windowCutoff] ∧
      base.pending = [] := ⟨rfl, rfl⟩

/-- The boundary bytes of an erase of extent 5. -/
theorem witness_FullResetKeepsTheFlash : flashWf [(20479, 0), (24576, 0)] = true ∧
    (FlashOp.erase 5).covers 20479 = false ∧ (FlashOp.erase 5).covers 20480 = true ∧
    (FlashOp.erase 5).covers 24575 = true ∧ (FlashOp.erase 5).covers 24576 = false := by decide +kernel

theorem witness_StepsKeepTheVehicleLegal : VehicleLegal swapping.veh ∧ VehicleLegal stopped.veh ∧
    ∃ t, step { swapping with pending := [.oneSecondTick] } = .next t :=
  ⟨⟨rfl, fun h e => by cases e; decide, rfl, by decide, fun e => by cases e⟩,
    ⟨rfl, (fun h e => nomatch e), rfl, by decide, fun _ => rfl⟩, _, rfl⟩

theorem witness_StepsKeepTheFlashCanonical : flashWf [(0, 0), (8388607, 1)] = true ∧
    ∃ t, step { base with flash := [(0, 0), (8388607, 1)], pending := [.oneSecondTick] } = .next t :=
  ⟨by decide, _, rfl⟩

theorem witness_StepsKeepTheDirectoryLegal : DirectoryLegal base ∧
    ∃ t, step { base with pending := [.dropImage .Y 2] } = .next t :=
  ⟨⟨by decide, by decide⟩, _, rfl⟩

theorem witness_StepsKeepTheSizes : ShapeLegal base ∧ ∃ t, step { base with pending := [.sweepNow .Y] } = .next t :=
  ⟨⟨by decide, by decide, by decide, fun p => by cases p <;> decide⟩, _, rfl⟩

theorem witness_StepsKeepExchangesLegal : StartUpLegal swapping ∧ ExchangeLegal swapping ∧ StartUpLegal startingPart ∧
    ∃ t, step { swapping with pending := [.interframeGapEnd .A] } = .next t := by
  refine ⟨⟨nofun, nofun, nofun, nofun, fun l => by cases l <;> nofun⟩, ?_,
    ⟨fun _ => by decide, fun _ x => nofun, fun _ x => nofun, fun _ x => nofun, fun l => by cases l <;> nofun⟩, _, rfl⟩
  intro l x h
  cases l
  · exact ⟨by decide, by decide, by decide, nofun⟩
  · cases h

theorem witness_StepsKeepExchangesLegal_swaps : SwapLegal swapping ∧ (swapping.lineA.exchange.any swapUnsent) = true ∧
    ∃ t, step { swapping with pending := [.setMode .V 1] } = .next t :=
  ⟨fun _ _ _ _ => rfl, by decide, _, rfl⟩

theorem witness_StepsKeepExchangesLegal_flash : FlashStill stopped ∧ stopped.halted = true ∧ FlashStill erasing ∧
    ∃ t, step { erasing with pending := [.powerWarning .V] } = .next t :=
  ⟨fun _ => ⟨rfl, rfl⟩, by decide, nofun, _, rfl⟩

/-- Each gate stands in the way of some order, with those before it passed. -/
theorem witness_GatesAnswerBeforeTheOrder :
    orderTerms (.sweepNow .Y) = some ⟨.Y, [.Y, .S], false, false, true⟩ ∧ armedPart.armed .Y = true ∧
    base.armed .V = false ∧ orderTerms (.sweepNow .V) = some ⟨.V, [.Y, .S], false, false, true⟩ ∧
    OrderTerms.heldByStartUp ⟨.Y, [.Y, .S], false, false, true⟩ startingPart = true ∧ startingPart.armed .Y = false ∧
    orderTerms (.saveSettings .Y) = some ⟨.Y, [.Y], false, true, true⟩ ∧
    OrderTerms.heldByStartUp ⟨.Y, [.Y], false, true, true⟩ stopped = false ∧ stopped.halted = true ∧
    stopped.armed .Y = false ∧
    ((base.modPort .Y fun q => { q with slot := some .saveSettings }).port .Y).slot.isSome = true ∧
    (base.modPort .Y fun q => { q with slot := some .saveSettings }).armed .Y = false := by decide +kernel

/-- Image orders that pass every gate, and what their own checks refuse, at the bounds. -/
theorem witness_OrdersAreRefusedByTheirOwnChecks_images :
    accepts base (.openImage .Y 1 1 0 9 v2 4081 0) = true ∧ accepts base (.openImage .S 9 1 3 2 v2 4080 0) = true ∧
    (base.image 1).isSome = true ∧ base.image 9 = none ∧
    (∃ r ∈ base.store.images, r.state = .receiving ∧ r.intake = some .Y) ∧
    (∀ r ∈ base.store.images, r.state = .receiving → r.intake ≠ some .S) ∧ base.store.free.length * 15 < 4080 ∧
    accepts base (.writeBlock .Y 2 2 []) = true ∧ base.image 2 = some intakeImage ∧ intakeImage.state = .receiving ∧
    intakeImage.intake = some .Y ∧ intakeImage.intake ≠ some .S ∧ intakeImage.length ≤ 2 ∧
    intakeImage.blocks[0]? = some .received ∧ base.image 1 = some storedImage ∧ storedImage.state ≠ .receiving ∧
    ({ intakeImage with blocks := [.received, .writing] }).blocks[1]? = some .writing ∧
    accepts base (.closeImage .Y 2) = true ∧ intakeImage.received ≠ intakeImage.length ∧
    accepts base (.dropImage .Y 9) = true ∧ accepts base (.readImage .S 9 0) = true := by decide +kernel

/-- The other orders, at the bounds of slots 31 and 32, line 2, mode 4, flag 2 and profile 16. -/
theorem witness_OrdersAreRefusedByTheirOwnChecks_others :
    accepts base (.setProfile .Y 16 ⟨1, 0, 1, 1, 1, 1, 5⟩) = true ∧ accepts base (.setProfile .Y 15 ⟨2, 0, 1, 1, 1, 1, 5⟩) = true ∧
    accepts base (.pinUnit .S 32 1 0 1) = true ∧ accepts base (.pinUnit .S 31 1 0 1) = true ∧ base.entry 31 = none ∧
    accepts base (.pinUnit .S 0 1 4 0) = true ∧ accepts base (.pinUnit .Y 0 0 3 0) = true ∧ (base.entry 0).isSome = true ∧
    accepts base (.pinUnit .S 0 1 0 2) = true ∧ accepts base (.setDeparture .V 0 5) = true ∧
    accepts base (.unpinUnit .S 32) = true ∧ accepts base (.unpinUnit .S 31) = true ∧
    accepts base (.releaseUnit .S 32) = true ∧ accepts base (.releaseUnit .S 31) = true ∧
    accepts base (.releaseUnit .S 0) = true ∧ base.entry 0 = some (sampleUnit .loading) ∧
    accepts base (.readUnit .V 32) = true ∧ accepts base (.readUnit .V 31) = true ∧ accepts base (.readRoster .V 32) = true ∧
    accepts base (.setMode .V 4) = true ∧ accepts (State.withVeh base .halted none (some .pin) true 0) (.setMode .V 2) = true ∧
    (State.withVeh base .halted none (some .pin) true 0).halted = true ∧ accepts base (.setDeparture .V 2 0) = true ∧
    accepts base (.setLine .Y 2 ⟨1, 1000, 3, 4, 2, 1, 1⟩ 300) = true ∧
    accepts base (.setLine .Y 1 ⟨1, 1000, 3, 4, 2, 1, 2⟩ 300) = true ∧ accepts base (.readLine .Y 2 0) = true ∧
    accepts base (.readLine .Y 0 2) = true ∧ accepts base (.resetLine .S 2) = true ∧
    accepts base (.setEventMask .V (List.replicate 20 2)) = true := by decide +kernel

theorem witness_ReadOrdersAnswerWhatTheyName : accepts base (.listImages .Y) = true ∧ accepts base (.readImage .S 2 0) = true ∧
    base.image 2 = some intakeImage ∧ accepts base (.readUnit .V 0) = true ∧ base.entry 0 = some (sampleUnit .loading) ∧
    base.job 0 = some (sampleJob .starting) ∧ accepts base (.readRoster .V 31) = true ∧ accepts base (.readRoster .Y 0) = true := by
  decide +kernel

theorem witness_ReadPlanReturnsThePlan : base.armed .Y = false ∧ base.starting = false ∧ startingPart.armed .S = false ∧
    startingPart.starting = true := by decide

theorem witness_ReadStatusAnswersTheState : base.armed .V = false ∧ startingPart.armed .Y = false ∧ armedPart.armed .S = false := by
  decide

theorem witness_ReadLineReportsTheLine : base.armed .Y = false ∧ base.starting = false ∧ startingPart.armed .S = false ∧
    startingPart.starting = true := by decide

theorem witness_EventFlagsAreSetAndCleared : accepts base (.readEvents .V) = true ∧
    ((base.post (.unitHeld 3)).port .V).flags[8]? = some ⟨true, 1, some (.unitHeld 3)⟩ ∧
    accepts base (.setEventMask .Y (List.replicate 20 1)) = true ∧ (∀ n ∈ List.replicate 20 1, n ≤ 1) := by decide +kernel

theorem witness_TimeOrdersSetTheirValues : accepts base (.setTime .Y 4294967295) = true ∧
    accepts base (.setDeparture .V 0 0) = true ∧ accepts base (.setDeparture .V 1 65535) = true := by decide

theorem witness_SetModeChangesTheMode : accepts base (.setMode .V 0) = true ∧ base.halted = false ∧ base.veh.mode = .yard ∧
    0 ∈ (base.line .A).openSet ∧ (base.job 0).isSome = true ∧ accepts swapping (.setMode .V 1) = true ∧
    swapping.veh.mode = .quiet ∧ accepts stopped (.setMode .V 2) = true ∧ stopped.halted = true ∧
    stopped.veh.asserted = false := by decide +kernel

theorem witness_HaltedStopsTheWork : base.halted = false ∧ accepts base (.setMode .V 3) = true ∧
    accepts base (.powerWarning .V) = true ∧ (State.withVeh base .yard (some 9) none false 2).veh.run = 2 ∧
    (State.withVeh base .yard (some 9) none false 2).halted = false ∧ flashWf base.flash = true ∧ stopped.halted = true ∧
    accepts stopped (.setMode .V 3) = true ∧ accepts stopped (.powerWarning .V) = true := by decide

theorem witness_SamplesDriveTheWarningFilter : base.veh.asserted = false ∧ base.veh.run < 2 ∧
    (State.withVeh base .yard (some 9) none false 1).veh.run < 2 ∧
    (State.withVeh base .halted none (some .pin) true 2).veh.asserted = true ∧
    (State.withVeh base .halted none (some .pin) true 2).veh.run = 2 ∧
    (State.withVeh base .quiet (some 9) none false 2).veh.asserted = false := by decide

theorem witness_ModeHoldLapsesToInService : base.veh.hold = some 300000 ∧ base.veh.mode = .yard ∧ quietPart.veh.hold = some 5 ∧
    quietPart.veh.mode = .quiet := by decide

/-- The countdown at the guard is the cutoff; the sample job is READY for it. -/
theorem witness_TicksAndCutoffsJudgeTheWindow :
    (withJob { base with time := { base.time with countdown := some 300 } } (sampleJob .ready)).time.window = .opened ∧
    300 ≤ base.guardTime ∧ ¬ 301 ≤ base.guardTime ∧ 0 ∈ (base.line .A).openSet ∧
    (withJob base (sampleJob .ready)).job 0 = some (sampleJob .ready) ∧ base.entry 0 = some (sampleUnit .loading) ∧
    base.entry 1 = none := by decide

theorem witness_SetLineStoresClampedSettings : accepts base (.setLine .Y 0 ⟨1, 1000, 3, 0, 2, 1, 1⟩ 300) = true ∧
    accepts base (.setLine .Y 1 ⟨1, 1000, 3, 4, 2, 1, 0⟩ 300) = true ∧ (base.line .A).state ≠ .disabled ∧
    accepts (withLine base fun q => { q with state := .disabled }) (.setLine .Y 0 ⟨1, 1000, 3, 4, 2, 1, 1⟩ 300) = true ∧
    base.linesRun = true ∧ (base.line .A).openSet.Nodup ∧ (∀ tag ∈ (base.line .A).openSet, (base.job tag).isSome = true) ∧
    1 < (base.line .A).settings.openLimit := by decide +kernel

theorem witness_ResetLineRestartsTheLine : accepts base (.resetLine .S 0) = true ∧ (base.line .A).state ≠ .disabled ∧
    base.halted = false ∧ accepts stopped (.resetLine .Y 1) = true ∧ stopped.halted = true ∧
    (withLine base fun q => { q with state := .faulted }).lineA.state = .faulted ∧
    accepts (withLine base fun q => { q with state := .disabled }) (.resetLine .Y 0) = true := by decide

theorem witness_SetProfileStoresTheProfile : accepts base (.setProfile .Y 0 ⟨0, 3, 7, 0, 1, 1, 0⟩) = true ∧
    accepts base (.setProfile .Y 15 ⟨1, 3, 8, 20001, 1, 1, 5⟩) = true ∧ base.profiles.length = 16 ∧
    base.entry 0 = some (sampleUnit .loading) := by decide

theorem base_directory : DirectoryLegal base := ⟨by decide, by decide⟩

theorem witness_PlanAndPinOrdersTakeEffect : base.armed .Y = false ∧ base.starting = false ∧ startingPart.armed .Y = false ∧
    startingPart.starting = true ∧ base.rules.length < 16 ∧
    ({ base with rules := List.replicate 15 ⟨1, 0, 9, 1, 0, false⟩ }).rules.length < 16 ∧
    16 ≤ ({ base with rules := List.replicate 16 ⟨1, 0, 9, 1, 0, false⟩ }).rules.length ∧ 0 < base.rules.length ∧
    base.rules.length ≤ 1 ∧ DirectoryLegal base ∧ NoRetiring base ∧
    base.entry 0 = some (sampleUnit .loading) ∧ accepts base (.pinUnit .S 0 1 3 1) = true ∧
    accepts base (.pinUnit .Y 0 65535 0 0) = true ∧ accepts base (.unpinUnit .S 0) = true ∧
    (sampleUnit .loading).servicePin = none ∧
    ({ sampleUnit .loading with yardPin := some ⟨5, 0, false⟩ }).yardPin.isSome = true ∧
    accepts base (.unpinUnit .Y 0) = true :=
  ⟨rfl, rfl, rfl, rfl, by decide, by decide, by decide, by decide, by decide, base_directory, by unfold NoRetiring; decide,
    rfl, by decide, by decide, by decide, rfl, rfl, by decide⟩

theorem witness_ReleaseFreesAHeldUnit : DirectoryLegal heldPart ∧ accepts heldPart (.releaseUnit .S 0) = true ∧
    heldPart.entry 0 = some { sampleUnit .held with failCount := 3, target := none } :=
  ⟨⟨by decide, by decide⟩, by decide +kernel⟩

theorem witness_SweepNowStartsFullSweeps : accepts base (.sweepNow .Y) = true ∧ (base.line .A).state = .active ∧
    (base.line .A).sweep = none ∧
    accepts ((withLine base fun q => { q with state := .disabled }).modLine .B fun q => { q with state := .faulted })
      (.sweepNow .S) = true ∧
    (withLine base fun q => { q with sweep := some ⟨.full, 47, 0, false⟩ }).lineA.sweep = some ⟨.full, 47, 0, false⟩ := by
  decide

theorem witness_OpenImageTakesExtents : accepts base (.openImage .S 9 1 0 0 v2 1050 0) = true ∧ base.image 9 = none ∧
    (∀ r ∈ base.store.images, r.state = .receiving → r.intake ≠ some .S) ∧ base.store.images.length < 24 ∧
    1050 ≤ 15 * base.store.free.length ∧ 64 ≤ base.store.free.length ∧ base.store.free.length - 70 < 64 ∧
    64 ≤ base.store.free.length - 6 := by decide +kernel

theorem witness_WriteBlockRequestsItsPrograms : accepts erasing (.writeBlock .Y 2 1 []) = true ∧
    erasing.image 2 = some intakeImage ∧ intakeImage.blocks[1]? = some .missing ∧ intakeImage.extents[1 / 15]? = some 20 ∧
    intakeImage.tags[1 / 15]? ≠ some .noTag ∧ ({ intakeImage with tags := [.noTag] }).tags[1 / 15]? = some .noTag ∧
    erasing.eng.op.isSome = true := by decide +kernel

theorem witness_CloseImageStartsTheCheck :
    accepts erasing (.closeImage .Y 2) = true ∧
    (withImage erasing { intakeImage with received := 2 }).image 2 = some { intakeImage with received := 2 } ∧
    erasing.halted = false ∧ erasing.eng.checking 2 = false ∧ erasing.eng.op.isSome = true := by decide +kernel

/-- An image in each of the five states can be dropped. -/
theorem witness_DropImageByState : ∀ st : ImageState,
    (withImage base { intakeImage with state := st }).image 2 = some { intakeImage with state := st } ∧
    accepts (withImage base { intakeImage with state := st }) (.dropImage .Y 2) = true ∧
    ((withImage base { intakeImage with state := st }).store.images.map Image.id).Nodup := by
  intro st; cases st <;> decide +kernel

theorem witness_SettingsOrdersStartTheirOperation : accepts base (.saveSettings .Y) = true ∧
    accepts base (.reloadSettings .Y) = true ∧ base.halted = false := by decide

theorem witness_RepliesAreDeliveredAndResetTakesEffect : accepts base (.reset .Y) = true ∧ armedPart.armed .Y = true ∧
    (armedPart.port .Y).reply.isSome = true ∧ (armedPart.port .Y).frame.length = 5 ∧ base.armed .V = false ∧
    (base.modPort .S fun q => { q with sending := some ⟨.done, .empty⟩ }).portS.sending = some ⟨.done, .empty⟩ := by
  decide +kernel

theorem witness_FramesAreJudged : base.armed .V = false ∧ decodeOrder .V [0, 5, 0x18, 0xA0, 0x51] = .error .badFrame ∧
    decodeOrder .V [0x00, 0x05, 0x1E, 0xC0, 0x96] = .error .badOrder ∧
    decodeOrder .V [0, 5, 0x18, 0xA0, 0x50] = .ok (.readStatus .V) ∧ num16 [0, 5, 0x18, 0xA0, 0x50] 0 = 5 ∧
    base.portS.order = [] ∧ num16 [0, 5, 0x18] 0 = 5 ∧ num16 [0, 4, 0x18, 0] 0 = 4 ∧
    (crc16 [0, 5, 0x18]).toNat ≠ num16 [0, 5, 0x18, 0xA0, 0x51] 3 := by decide +kernel

theorem witness_WireEventsMoveTheExchange :
    (talking base (.burst 0 0 2) (.sending 1) 0).lineA.exchange = some (talk (.burst 0 0 2) (.sending 1) 0) ∧
    (talking base (.burst 0 0 2) (.between 1) 0).lineA.exchange = some (talk (.burst 0 0 2) (.between 1) 0) ∧
    (∀ r ∈ base.store.images, r.state ≠ .retiring) ∧ swapping.lineA.exchange = some (talk (.swap 0) .gap 0) ∧
    swapping.swapAllowed 0 = true ∧ (talking base (.swap 0) .gap 0).swapAllowed 0 = false := by decide +kernel

/-- A poll waits for its reply with a retry left; receptions that fail each of R67's checks in turn. -/
theorem witness_FailedAttemptsAreRetried :
    Awaits (talking base (.poll 0) .awaiting 2) .A (talk (.poll 0) .awaiting 2) ∧ NoRetiring base ∧ OnlyOn base .A 0 ∧
    (talk (.poll 0) .awaiting 2).retries < (talk (.poll 0) .awaiting 2).limit ∧
    num16 [5, 0x84, 0, 0, 0, 0, 0] 3 = 0 ∧ (crc16 [5, 0x84, 0, 0, 0]).toNat ≠ num16 [5, 0x84, 0, 0, 0, 0, 0] 5 ∧
    (crc16 [5, 0x83, 7, 0, 4, 0, 4, 1, 3]).toNat = num16 [5, 0x83, 7, 0, 4, 0, 4, 1, 3, 0x15, 0x9A] 9 ∧
    (talk (.poll 0) .awaiting 2).purpose.replyCode ≠ 0x83 :=
  ⟨⟨rfl, rfl⟩, by unfold NoRetiring; decide +kernel, by unfold OnlyOn; decide +kernel, by decide, by decide, by decide +kernel,
    by decide +kernel, by decide⟩

/-- The last attempt of each purpose has failed, with the failure run at its bounds. -/
theorem witness_FailedExchangesAreAccounted :
    Awaits (talking base (.poll 0) .awaiting 3) .A (talk (.poll 0) .awaiting 3) ∧ base.lineA.state = .active ∧
    (withLine base fun q => { q with run := 2 }).lineA.run < 3 ∧ base.job 0 = some (sampleJob .starting) ∧
    Awaits (talking base (.swap 0) .awaiting 3) .A (talk (.swap 0) .awaiting 3) ∧
    Awaits (talking base (.revert 0) .awaiting 3) .A (talk (.revert 0) .awaiting 3) ∧
    Awaits (talking base (.rosterProbe 0) .awaiting 3) .A (talk (.rosterProbe 0) .awaiting 3) ∧
    Awaits (talking base .fullProbe .awaiting 3) .A (talk .fullProbe .awaiting 3) ∧ base.slotAt .A 1 = some 0 ∧
    base.entry 0 = some (sampleUnit .loading) ∧ (sampleUnit .loading).activating = false ∧
    (withEntry base { sampleUnit .loading with missed := 2 }).entry 0 = some { sampleUnit .loading with missed := 2 } ∧
    Awaits (talking (withEntry base (sampleUnit .switching)) (.activationProbe 0) .awaiting 3) .A
      (talk (.activationProbe 0) .awaiting 3) ∧ (sampleUnit .switching).activating = true ∧
    Awaits (talking base .recoveryProbe .awaiting 3) .A (talk .recoveryProbe .awaiting 3) ∧
    (talk .recoveryProbe .awaiting 3).limit ≤ (talk .recoveryProbe .awaiting 3).retries := by
  unfold Awaits; decide +kernel

theorem witness_FourthFailureFaultsTheLine :
    Awaits (withLine (talking base (.poll 0) .awaiting 3) fun q => { q with run := 3 }) .A (talk (.poll 0) .awaiting 3) ∧
    3 ≤ (withLine (talking base (.poll 0) .awaiting 3) fun q => { q with run := 3 }).lineA.run ∧
    CountsAgainst base .A (talk (.poll 0) .awaiting 3) ∧ CountsAgainst base .A (talk .fullProbe .awaiting 3) ∧
    CountsAgainst base .A (talk (.swap 0) .awaiting 3) :=
  ⟨⟨rfl, rfl⟩, by decide, .inl ⟨0, rfl, by decide⟩, .inr (.inr ⟨rfl, by decide +kernel⟩), .inr (.inl ⟨0, .inl rfl⟩)⟩

theorem witness_IdentRecordsTheUnit :
    Awaits (talking base .fullProbe .awaiting 0) .A (talk .fullProbe .awaiting 0) ∧
    (talk .fullProbe .awaiting 0).purpose.replyCode = 0x81 ∧ 1 ≤ sampleIdent.capacity ∧ (base.line .A).charges = [] ∧
    base.roster.length = 32 ∧ (base.line .A).state = .active ∧
    Awaits (talking base .recoveryProbe .awaiting 0) .A (talk .recoveryProbe .awaiting 0) ∧
    (withLine base fun q => { q with state := .faulted }).lineA.state = .faulted ∧ base.slotAt .A 1 = some 0 ∧
    base.entry 0 = some (sampleUnit .loading) ∧ (sampleUnit .loading).serial = sampleIdent.serial ∧
    base.slotAt .A 47 = none ∧ base.entry 1 = none ∧ (∀ n, n < 1 → (base.entry n).isSome = true) ∧
    ({ sampleIdent with serial := 7 }).serial ≠ (sampleUnit .loading).serial ∧
    ({ sampleIdent with classCode := 2 }).classCode ≠ (sampleUnit .loading).classCode := by
  unfold Awaits; decide +kernel

theorem sample_unlisted : Unlisted base 0 := by
  intro l; cases l <;> decide

theorem base_no_retiring : NoRetiring base := by
  unfold NoRetiring; decide

/-- Fills 0, 3 and 4 of an image of 3 blocks, refusals, and both modes. -/
theorem witness_FillAnswersTheLoad :
    Awaits (talking base (.load 0 .resume) .awaiting 0) .A (talk (.load 0 .resume) .awaiting 0) ∧
    Awaits (talking base (.load 0 .fresh) .awaiting 0) .A (talk (.load 0 .fresh) .awaiting 0) ∧
    JobStands (talking base (.load 0 .fresh) .awaiting 0) 0 (sampleJob .starting) (sampleUnit .loading) storedImage ∧
    (base.line .A).state = .active ∧ (base.line .A).charges = [] ∧ NoRetiring base ∧ Unlisted base 0 ∧ OnlyOn base .A 0 ∧
    (sampleJob .starting).parking = false ∧ 1 ≤ (sampleUnit .loading).estimate ∧ 3 ≤ storedImage.length ∧
    storedImage.length < 4 ∧ (sampleUnit .loading).state ≠ .held :=
  ⟨⟨rfl, rfl⟩, ⟨rfl, rfl⟩, ⟨rfl, rfl, rfl, rfl⟩, rfl, rfl, base_no_retiring, sample_unlisted, by unfold OnlyOn; decide, rfl,
    by decide, by decide, by decide, by decide⟩

/-- The burst of blocks 1 and 2: fills 3, 2 and 4; the check of the whole image: fills 3 and 2. -/
theorem witness_TakenAdvancesItsJob :
    Awaits (talking base (.burst 0 1 2) .awaiting 2) .A (talk (.burst 0 1 2) .awaiting 2) ∧
    Awaits (talking base (.check 0) .awaiting 0) .A (talk (.check 0) .awaiting 0) ∧
    JobStands (talking base (.burst 0 1 2) .awaiting 2) 0 (sampleJob .starting) (sampleUnit .loading) storedImage ∧
    NoRetiring base ∧ Unlisted base 0 ∧ OnlyOn base .A 0 ∧ (base.line .A).charges = [] ∧
    (talk (.burst 0 1 2) .awaiting 2).retries < (talk (.burst 0 1 2) .awaiting 2).limit ∧
    (3 = 1 + 2 ∧ 2 < 1 + 2 ∧ 1 + 2 < 4) ∧ storedImage.length = 3 ∧ (sampleUnit .loading).state ≠ .held :=
  ⟨⟨rfl, rfl⟩, ⟨rfl, rfl⟩, ⟨rfl, rfl, rfl, rfl⟩, base_no_retiring, sample_unlisted, by unfold OnlyOn; decide, rfl, by decide,
    by decide, rfl, by decide⟩

theorem witness_TakenStartsTheActivation :
    Awaits (talking (withEntry base (sampleUnit .staged)) (.swap 0) .awaiting 0) .A (talk (.swap 0) .awaiting 0) ∧
    (withEntry base (sampleUnit .staged)).entry 0 = some (sampleUnit .staged) ∧
    (sampleUnit .staged).serial = (talk (.swap 0) .awaiting 0).serial ∧ (sampleUnit .pending).state ≠ .staged ∧
    Awaits (talking (withEntry base (sampleUnit .fallback)) (.revert 0) .awaiting 0) .A (talk (.revert 0) .awaiting 0) ∧
    (sampleUnit .fallback).state = .fallback ∧ (sampleUnit .held).state = .held ∧ (base.line .A).charges = [] ∧
    (base.line .A).state = .active := by
  unfold Awaits; decide +kernel

/-- A RELEASED job's wait at its limit of 2880 and one past it, fill counts within and out of order, and a VERIFYING job. -/
theorem witness_StateAnswersThePoll :
    Awaits (talking base (.poll 0) .awaiting 0) .A (talk (.poll 0) .awaiting 0) ∧
    JobStands (withJob (talking base (.poll 0) .awaiting 0) { sampleJob .released with wait := some .burst, busyElapsed := 2880 }) 0
      { sampleJob .released with wait := some .burst, busyElapsed := 2880 } (sampleUnit .loading) storedImage ∧
    JobStands (withJob (talking base (.poll 0) .awaiting 0) (sampleJob .verifying)) 0 (sampleJob .verifying)
      (sampleUnit .loading) storedImage ∧
    NoRetiring base ∧ Unlisted base 0 ∧ (1 ≤ (sampleJob .released).next ∧ 1 ≤ storedImage.length) ∧
    2880 ≤ (sampleJob .released).busyLimit ∧ (sampleJob .released).busyLimit < 2881 ∧ (base.line .A).run < 3 ∧
    (sampleJob .released).next < 2 ∧ (sampleUnit .loading).state = .loading ∧ (sampleUnit .loading).state ≠ .held :=
  ⟨⟨rfl, rfl⟩, ⟨rfl, rfl, rfl, rfl⟩, ⟨rfl, rfl, rfl, rfl⟩, base_no_retiring, sample_unlisted, by decide, by decide, by decide,
    by decide, by decide, rfl, by decide⟩

theorem witness_SamplesMoveTheEstimate : 180 < 260 ∧ 100 < 190 ∧ 172 = 172 := by decide

theorem calm_of_rfl (s : State) (h1 : s.retired = none) (h2 : s.freeTag = none ∨ s.waitingSlot = none)
    (h3 : s.tidySweep .A = s) (h4 : s.tidySweep .B = s) (h5 : ∀ p, (s.port p).slot = none)
    (h6 : s.startup.stage = .running) : Calm s :=
  ⟨h1, h2, h3, h4, fun p a b h => by simp [h5 p] at h, h6⟩

/-- The sample job RELEASED with its poll due at 180. -/
def pollWaits : State := withJob base { sampleJob .released with wait := some .burst, pollDue := some 180 }

theorem witness_DueTimesBeginTheirWork_poll :
    Calm (pollWaits.advanceTo 180) ∧ LineFree (pollWaits.advanceTo 180) .A ∧ Asleep (pollWaits.advanceTo 180) .B ∧
    pollWaits.veh.mode = .yard ∧ (pollWaits.advanceTo 180).activationSlot .A = none ∧
    (pollWaits.advanceTo 180).sweepOverdue .A = false ∧ (pollWaits.advanceTo 180).duePoll .A = some 0 :=
  ⟨calm_of_rfl _ (by decide +kernel) (.inr (by decide +kernel)) rfl rfl (fun p => by cases p <;> rfl) rfl,
    ⟨by decide, by decide, rfl⟩, by unfold Asleep; decide, rfl, by decide +kernel, by decide +kernel, by decide +kernel⟩

/-- The sample unit SWITCHING with its probe due at 10000. -/
def probeWaits : State := withEntry base { sampleUnit .switching with probeDue := some 10000 }

theorem witness_DueTimesBeginTheirWork_probe :
    Calm (probeWaits.advanceTo 10000) ∧ LineFree (probeWaits.advanceTo 10000) .A ∧ Asleep (probeWaits.advanceTo 10000) .B ∧
    probeWaits.entry 0 = some { sampleUnit .switching with probeDue := some 10000 } ∧
    ({ sampleUnit .switching with probeDue := some 10000 }).activating = true :=
  ⟨calm_of_rfl _ (by decide +kernel) (.inr (by decide +kernel)) rfl rfl (fun p => by cases p <;> rfl) rfl,
    ⟨by decide, by decide, rfl⟩, by unfold Asleep; decide, rfl, by decide⟩

/-- A full sweep at address 47 whose last probe ended at 0, overdue at 2501. -/
def sweepWaits : State := withLine base fun q => { q with sweep := some ⟨.full, 47, 0, false⟩ }

theorem witness_DueTimesBeginTheirWork_sweep :
    Calm (sweepWaits.advanceTo 2501) ∧ LineFree (sweepWaits.advanceTo 2501) .A ∧ Asleep (sweepWaits.advanceTo 2501) .B ∧
    (sweepWaits.line .A).sweep = some ⟨.full, 47, 0, false⟩ ∧ (sweepWaits.advanceTo 2501).activationSlot .A = none ∧
    (sweepWaits.line .A).state = .active :=
  ⟨calm_of_rfl _ (by decide +kernel) (.inr (by decide +kernel)) (by decide +kernel) rfl (fun p => by cases p <;> rfl) rfl,
    ⟨by decide, by decide, rfl⟩, by unfold Asleep; decide, rfl, by decide +kernel, rfl⟩

/-- Line A FAULTED with its recovery timer at 50000. -/
def recoveryWaits : State := withLine base fun q => { q with state := .faulted, recoveryTimer := some 50000, openSet := [] }

theorem witness_DueTimesBeginTheirWork_recovery :
    Calm (recoveryWaits.advanceTo 50000) ∧ LineFree (recoveryWaits.advanceTo 50000) .A ∧
    Asleep (recoveryWaits.advanceTo 50000) .B ∧ (recoveryWaits.line .A).state = .faulted ∧
    (recoveryWaits.line .A).recoveryTimer = some 50000 ∧
    (recoveryWaits.entry 0 = some (sampleUnit .loading) ∧ (sampleUnit .loading).address ≤ 47 ∧
      (sampleUnit .loading).presence ≠ .absent) ∧
    (∀ (n : Nat) (e : Entry), (withEntry recoveryWaits { sampleUnit .loading with presence := .absent }).roster[n]? = some (some e) →
      e.presence = .absent) :=
  ⟨calm_of_rfl _ (by decide +kernel) (.inr (by decide +kernel)) rfl rfl (fun p => by cases p <;> rfl) rfl,
    ⟨by decide, by decide, rfl⟩, by unfold Asleep; decide, rfl, rfl, ⟨rfl, by decide, by decide⟩, fun n e h => by
      have hall : (withEntry recoveryWaits { sampleUnit .loading with presence := .absent }).roster.all
          (fun r => r.all fun e => e.presence == .absent) = true := by decide +kernel
      simpa using List.all_eq_true.1 hall _ (List.mem_of_getElem? h)⟩

theorem witness_DueTimesBeginTheirWork_interval :
    (withLine base fun q => { q with sweepTimer := some 50000 }).lineA.sweepTimer = some 50000 ∧ base.lineA.sweep = none ∧
    base.entry 0 = some (sampleUnit .loading) ∧ (∀ n, n < 32 → 0 < n → base.entry n = none) ∧
    (withLine base fun q => { q with sweepTimer := some 50000, sweep := some ⟨.full, 1, 0, false⟩ }).lineA.sweep =
      some ⟨.full, 1, 0, false⟩ := by decide +kernel

theorem witness_BootTimersRunOut :
    (withEntry base { sampleUnit .switching with bootTimer := some ⟨0, .first, false⟩, failCount := 1 }).entry 0 =
      some { sampleUnit .switching with bootTimer := some ⟨0, .first, false⟩, failCount := 1 } ∧
    (withEntry base { sampleUnit .switching with bootTimer := some ⟨0, .first, false⟩, failCount := 2 }).entry 0 =
      some { sampleUnit .switching with bootTimer := some ⟨0, .first, false⟩, failCount := 2 } ∧
    (withEntry base { sampleUnit .fallback with bootTimer := some ⟨0, .second, false⟩ }).entry 0 =
      some { sampleUnit .fallback with bootTimer := some ⟨0, .second, false⟩ } := by decide +kernel

/-- A burst being read, with the line quiet and not, and a read that nobody wants. -/
theorem witness_LineReadsFillTheBuffer :
    (withOp (talking base (.burst 0 0 2) .reading 0) (.lineRead .A ⟨0, 1, 0, 2⟩ true)).opInside = true ∧
    (withOp (talking base (.burst 0 0 2) .reading 0) (.lineRead .A ⟨0, 1, 0, 2⟩ true)).lineA.exchange =
      some (talk (.burst 0 0 2) .reading 0) ∧
    base.image 1 = some storedImage ∧ NoRetiring base ∧ storedImage.extents[(0 + 1) / 15]? = some 10 ∧
    (withOp base (.lineRead .A ⟨0, 1, 0, 2⟩ false)).opInside = true ∧ base.lineA.quiet = true ∧
    (talking base (.burst 0 0 2) .reading 0).lineA.quiet = false :=
  ⟨by decide +kernel, rfl, rfl, base_no_retiring, by decide, by decide +kernel, rfl, rfl⟩

/-- The second block of image 2, and its identity fields. -/
def blockProgram : Program := ⟨2, 0, 20, .block 1 ⟨.Y, 0⟩, 20 * 4096 + 512, [0xAB], true⟩
def tagProgram : Program := ⟨2, 0, 20, .identity, 20 * 4096, [0, 2], true⟩

theorem witness_IntakeProgramsLandOrDamage :
    (withOp base (.program blockProgram)).opInside = true ∧ (withOp base (.program tagProgram)).opInside = true ∧
    base.image 2 = some intakeImage ∧ intakeImage.state = .receiving ∧ NoRetiring base ∧ flashWf base.flash = true ∧
    intakeImage.extents[blockProgram.position]? = some 20 ∧ (base.port .Y).seq = 0 :=
  ⟨by decide +kernel, by decide +kernel, rfl, rfl, base_no_retiring, rfl, rfl, rfl⟩

/-- Image 2 being checked, at its first block and at its last. -/
theorem witness_CloseChecksRunToTheirEnd :
    (withOp (withImage base { intakeImage with state := .checking }) (.checkRead ⟨2, 0⟩ true)).opInside = true ∧
    (withOp (withImage base { intakeImage with state := .checking }) (.checkRead ⟨2, 1⟩ true)).opInside = true ∧
    (withImage base { intakeImage with state := .checking }).image 2 = some { intakeImage with state := .checking } ∧
    NoRetiring (withImage base { intakeImage with state := .checking }) ∧ intakeImage.extents[1 / 15]? = some 20 ∧
    (0 + 1 < intakeImage.length ∧ intakeImage.length ≤ 1 + 1) ∧ base.eng.checks = [] ∧ base.halted = false :=
  ⟨by decide +kernel, by decide +kernel, by decide +kernel, by unfold NoRetiring; decide +kernel, by decide, by decide, rfl, rfl⟩

def markProgram : Program := ⟨2, 0, 20, .closeMark, 20 * 4096 + 64, [1], true⟩
def dropProgram : Program := ⟨2, 0, 20, .dropMark, 20 * 4096 + 128, [0, 0], true⟩

theorem witness_MarksDecideTheImage :
    (withOp (withImage base { intakeImage with state := .checking, markPending := true }) (.program markProgram)).opInside = true ∧
    (withImage base { intakeImage with state := .checking }).image 2 = some { intakeImage with state := .checking } ∧
    NoRetiring (withImage base { intakeImage with state := .checking }) ∧ intakeImage.dropped = false ∧
    intakeImage.extents[0]? = some 20 ∧
    (withOp (withImage base { intakeImage with state := .retiring }) (.program dropProgram)).opInside = true ∧
    (∀ q ∈ (withImage base { intakeImage with state := .retiring }).store.images, q.state = .retiring →
      q = { intakeImage with state := .retiring }) ∧
    intakeImage.jobCount = 0 ∧ ({ intakeImage with jobCount := 1 }).jobCount ≠ 0 ∧ intakeImage.markFailed = false :=
  ⟨by decide +kernel, by decide +kernel, by unfold NoRetiring; decide +kernel, rfl, rfl, by decide +kernel, by decide +kernel,
    rfl, by decide, rfl⟩

theorem witness_ErasesAndLimitsEndTheirOperation : erasing.opInside = true ∧ flashWf erasing.flash = true ∧
    erasing.eng.op = some (.erase 50) ∧ erasing.retired = none ∧ erasing.eng.suspended = none ∧
    (FlashOp.erase 50).isErase = true ∧ (withOp base (.program blockProgram)).opInside = true ∧
    (FlashOp.program blockProgram).isProgram = true ∧ (withOp base .settingsRead).opInside = true ∧
    FlashOp.settingsRead.isErase = false ∧ FlashOp.settingsRead.isProgram = false := by decide +kernel

theorem witness_TheEngineGoesOn :
    (erasing.modEng fun f => { f with suspending := true, readA := some ⟨0, 1, 0, 1⟩ }).eng.suspending = true ∧
    erasing.eng.op = some (.erase 50) ∧ erasing.eng.hold = false ∧ erasing.halted = false ∧
    (erasing.modEng fun f => { f with suspending := true, readB := some ⟨0, 1, 0, 1⟩ }).eng.readA = none ∧
    (erasing.modEng fun f => { f with suspending := true, programs := [blockProgram] }).eng.programs = blockProgram :: [] ∧
    State.reset.eng.hold = true ∧ State.reset.startup.stage = .deviceReset ∧ stopped.startup.stage ≠ .deviceReset := by
  decide +kernel

def saving (op : FlashOp) : State := { withOp base op with settings := { op := .saving .Y, snapshot := [] } }

theorem witness_SavesGoPageByPage : (saving .settingsErase).opInside = true ∧ flashWf (saving .settingsErase).flash = true ∧
    (saving .settingsErase).settings.op = .saving .Y ∧ (saving (.settingsPage 0)).opInside = true ∧
    (saving (.settingsPage 2)).opInside = true ∧ (saving (.settingsPage 3)).opInside = true := by decide +kernel

/-- A reload, the start-up's load, and the scan before its last extent and at it. -/
theorem witness_SettingsAndTagsAreRead :
    ({ withOp base .settingsRead with settings := { op := .reloading .Y, snapshot := [] } }).settings.op = .reloading .Y ∧
    (withOp base .settingsRead).opInside = true ∧ (withOp startingPart .settingsRead).opInside = true ∧
    startingPart.settings.op = .loading ∧ (withOp startingPart (.tagRead 2046)).opInside = true ∧
    (withOp startingPart (.tagRead 2047)).opInside = true ∧ startingPart.startup.stage ≠ .sweeps ∧
    base.entry 0 = some (sampleUnit .loading) ∧ base.lineA.state = .active := by decide +kernel

theorem witness_SettingsRecordReadsBack : RecordLegal { base with
    yardPins := [⟨4294967295, ⟨65535, 3, true⟩⟩], servicePins := [⟨100, ⟨5, 0, false⟩⟩], heldSerials := [100, 7] } := by
  refine ⟨fun l => by cases l <;> decide, by decide, by decide, by decide, ⟨by decide, by decide⟩, ?_, ⟨by decide, by decide, by decide⟩⟩
  rintro table (rfl | rfl) <;> exact ⟨by decide, by decide, by decide⟩

/-! ### Witnesses of single clauses -/

theorem witness_FullResetKeepsTheFlash_saving : flashWf (saving (.settingsPage 1)).flash = true ∧
    (saving (.settingsPage 1)).settings.op = .saving .Y := by decide

/-- The part in HALTED with work to resume: a full sweep due and an activation probe due on line A, a recovery probe due on
line B, an image being checked, an extent to be erased and a reload. -/
def resting : State :=
  { withLine (withEntry (withImage stopped { intakeImage with state := .checking })
      { sampleUnit .switching with probeDue := some 0 }) (fun q => { q with fullDue := true }) with
    lineB := { calmLine with state := .faulted, recoveryDue := true }
    settings := { op := .reloading .Y, snapshot := [] }
    store := { stopped.store with images := [storedImage, { intakeImage with state := .checking }], dirty := [50] } }

theorem witness_SetModeChangesTheMode_resumes : accepts resting (.setMode .V 1) = true ∧ resting.halted = true ∧
    resting.veh.asserted = false ∧ DirectoryLegal resting ∧ resting.eng.op = none ∧ resting.eng.suspended = none ∧
    (∀ l, (resting.line l).exchange = none) ∧ resting.linesRun = true ∧ (resting.line .A).fullDue = true ∧
    (resting.line .A).state = .active ∧ (resting.line .B).state = .faulted ∧ (resting.line .B).recoveryDue = true ∧
    resting.entry 0 = some { sampleUnit .switching with probeDue := some 0 } ∧
    ({ sampleUnit .fallback with revert := .queued }).revert = .queued ∧ resting.eng.checking 2 = false ∧
    resting.store.dirty.head? = some 50 ∧ resting.eng.class5 = none ∧ resting.eng.class4 = none :=
  ⟨by decide +kernel, rfl, rfl, ⟨by decide, by decide⟩, rfl, rfl, fun l => by cases l <;> rfl, rfl, rfl, rfl, rfl, rfl, rfl,
    rfl, by decide, rfl, rfl, rfl⟩

/-- The part with programs waiting for the flash. -/
def queueing (s : State) (ps : List Program) : State := s.modEng fun f => { f with programs := ps }

theorem witness_HaltedStopsTheWork_handBack :
    accepts (queueing erasing [tagProgram, blockProgram]) (.powerWarning .V) = true ∧ DirectoryLegal erasing ∧
    erasing.image 2 = some intakeImage ∧ intakeImage.state = .receiving ∧ erasing.eng.suspended = none ∧
    (∀ q, q ∈ (queueing erasing [tagProgram, blockProgram]).eng.programs → q.kind = .identity ∨
      ∃ b tk, q.kind = .block b tk) ∧
    (erasing.port .Y).seq = 0 ∧ 1 < intakeImage.blocks.length ∧ tagProgram.position < intakeImage.tags.length ∧
    (∀ r, r ∈ erasing.store.images → (⟨.Y, 0⟩ : Ticket) ∉ r.droppers) ∧
    (withOp base (.program blockProgram)).eng.op = some (.program blockProgram) ∧ blockProgram.live = true :=
  ⟨by decide +kernel, ⟨by decide, by decide⟩, rfl, rfl, rfl, fun q hq => by
    simp only [queueing, State.modEng, List.mem_cons, List.not_mem_nil, or_false] at hq
    rcases hq with rfl | rfl
    · exact .inl rfl
    · exact .inr ⟨1, ⟨.Y, 0⟩, rfl⟩, rfl, by decide, by decide, by decide, rfl, rfl⟩

theorem witness_HaltedStopsTheWork_marks :
    (withImage base { intakeImage with state := .checking }).image 2 = some { intakeImage with state := .checking } ∧
    markProgram.kind = .closeMark ∧ (queueing base [markProgram]).eng.programs.filter (fun q => q.image == 2) = [markProgram] ∧
    (withImage base { intakeImage with state := .retiring }).image 2 = some { intakeImage with state := .retiring } ∧
    dropProgram.kind = .dropMark ∧ (saving .settingsErase).settings.op = .saving .Y ∧
    ([(saving .settingsErase).eng.op, (saving .settingsErase).eng.suspended, (saving .settingsErase).eng.class4].filter
      fun o => o.any fun op => op.recordCount.isSome).length = 1 := by decide +kernel

/-- A second job of line A. -/
def twoJobs (st : JobState) : State :=
  withLine (base.setJob 1 (some { sampleJob st with slot := 1, serial := 101 })) fun q => { q with openSet := [0, 1] }

theorem witness_SetLineStoresClampedSettings_parks : accepts (twoJobs .starting) (.setLine .Y 0 ⟨1, 1000, 3, 1, 2, 1, 1⟩ 300) = true ∧
    ((twoJobs .starting).line .A).openSet = [0, 1] ∧ NoRetiring (twoJobs .starting) ∧
    (∀ tag, tag ∈ ((twoJobs .starting).line .A).openSet → ((twoJobs .starting).job tag).isSome = true ∧
      OnlyOn (twoJobs .starting) .A tag) ∧ (twoJobs .starting).time.countdown = none :=
  ⟨by decide +kernel, rfl, by unfold NoRetiring; decide +kernel, by unfold OnlyOn; decide +kernel, rfl⟩

theorem witness_ResetLineRestartsTheLine_parks : NoRetiring base ∧ 0 ∈ (base.line .A).openSet ∧
    base.job 0 = some (sampleJob .starting) := by unfold NoRetiring; decide

/-- Attempts that fail in each way: no reply, a parity error, a broken frame, a CRC-16, an address, a content. -/
theorem witness_AttemptFails (old : Stats) : let x := talk (.poll 0) .awaiting 3
    AttemptFails old .A x (.noReply .A) { old with noReplies := min 65535 (old.noReplies + 1) } .noReply ∧
    AttemptFails old .A x (.badReply .A ⟨[⟨0b00000000010, false, false⟩]⟩)
      { old with parityErrors := min 65535 (old.parityErrors + 1) } .bad ∧
    AttemptFails old .A x (.badReply .A ⟨[⟨charBits 1, false, false⟩]⟩)
      { old with framingErrors := min 65535 (old.framingErrors + 1) } .bad ∧
    AttemptFails old .A x (.badReply .A ⟨wireChars [1, 0x84, 0, 0, 0, 0, 0]⟩)
      { old with crcErrors := min 65535 (old.crcErrors + 1) } .bad ∧
    AttemptFails old .A x (.badReply .A ⟨wireChars [5, 0x83, 7, 0, 4, 0, 4, 1, 3, 0x15, 0x9A]⟩) old .bad ∧
    AttemptFails old .A x (.takenReceived .A ⟨0, true, .block⟩) old .bad := by
  refine ⟨.inl ⟨rfl, rfl, rfl⟩, .inr ⟨rfl, .inl ⟨_, rfl, by decide +kernel, rfl⟩⟩,
    .inr ⟨rfl, .inr (.inl ⟨_, rfl, by decide +kernel, .inr (by decide +kernel), rfl⟩)⟩,
    .inr ⟨rfl, .inr (.inr (.inl ⟨_, rfl, ⟨by decide +kernel, by decide +kernel, by decide +kernel⟩, by decide +kernel, rfl⟩))⟩,
    .inr ⟨rfl, .inr (.inr (.inr (.inl ⟨_, rfl, ⟨by decide +kernel, by decide +kernel, by decide +kernel⟩, by decide +kernel,
      .inl (by decide +kernel), rfl⟩)))⟩,
    .inr ⟨rfl, .inr (.inr (.inr (.inr (.inr (.inr (.inl ⟨_, rfl, by decide, rfl⟩))))))⟩⟩

/-- A full-sweep probe at an address that no entry holds, at address 46 and at 47. -/
theorem witness_FailedExchangesAreAccounted_unheld :
    (withLine base fun q => { q with sweep := some ⟨.full, 47, 0, false⟩
                                     exchange := some { talk .fullProbe .awaiting 3 with address := 47 } }).lineA.sweep =
      some ⟨.full, 47, 0, false⟩ ∧
    base.slotAt .A 47 = none ∧ base.slotAt .A 46 = none ∧ base.lineA.rosterDue = false := by decide +kernel

/-- Two charges for a unit in slot 1 that has one already. -/
def charged : State :=
  withLine ((talking base (.rosterProbe 0) .awaiting 0).setEntry 1 (some
    { sampleUnit .staged with address := 2, serial := 101, failCount := 1 })) fun q => { q with charges := [⟨1, 101⟩, ⟨1, 101⟩] }

theorem witness_IdentRecordsTheUnit_charges : Awaits charged .A (talk (.rosterProbe 0) .awaiting 0) ∧
    charged.slotAt .A 1 = some 0 ∧ charged.roster.length = 32 ∧ charged.lineA.state = .active ∧
    charged.entry 1 = some { sampleUnit .staged with address := 2, serial := 101, failCount := 1 } ∧
    (charged.lineA.charges.filter fun c => c.slot == 1 && c.serial == 101).length = 2 := by
  unfold Awaits; decide +kernel

/-- A roster with every slot taken, slots 4 and 9 by ABSENT units or not. -/
def crowded (absent : Bool) : State :=
  { withLine base (fun q => { q with exchange := some { talk .fullProbe .awaiting 0 with address := 47 }
                                     sweep := some ⟨.full, 46, 0, false⟩ }) with
    roster := (List.range 32).map fun n => some { sampleUnit .inStep with
      address := n + 1, serial := n, missed := if n = 9 then 5 else 3
      presence := if absent && (n == 4 || n == 9) then .absent else .present } }

theorem witness_IdentRecordsTheUnit_fullRoster : (crowded true).slotAt .A 47 = none ∧ (crowded true).roster.length = 32 ∧
    (∀ n, n < 32 → ((crowded true).entry n).isSome = true) ∧
    ((crowded true).entry 9).map Entry.presence = some .absent ∧ ((crowded true).entry 9).map Entry.missed = some 5 ∧
    ((crowded true).entry 4).map Entry.missed = some 3 ∧
    (∀ n, n < 32 → ((crowded false).entry n).map Entry.presence = some .present) ∧
    (crowded false).lineA.sweep = some ⟨.full, 46, 0, false⟩ := by decide +kernel

/-- The sample unit in an activation, probed; IDENTs of its target's version, with and without a boot fault, and of
another; two charges before and none; the timer in both phases. -/
theorem witness_ActivationsAreJudged :
    Awaits (talking (withEntry base (sampleUnit .switching)) (.activationProbe 0) .awaiting 0) .A
      (talk (.activationProbe 0) .awaiting 0) ∧
    Awaits (talking (withEntry base { sampleUnit .fallback with bootTimer := some ⟨9, .second, false⟩ }) .fullProbe .awaiting 0)
      .A (talk .fullProbe .awaiting 0) ∧
    (withEntry base (sampleUnit .switching)).slotAt .A 1 = some 0 ∧ (base.line .A).state = .active ∧
    (base.line .A).charges = [] ∧ base.roster.length = 32 ∧
    (sampleUnit .switching).target = some ⟨1, v2, 0, .plan, false⟩ ∧ (sampleUnit .switching).serial = sampleIdent.serial ∧
    ({ sampleIdent with bank0 := ⟨some v2, true⟩ }).bank0.version = some v2 ∧ sampleIdent.bank0.version ≠ some v2 ∧
    ({ sampleIdent with bootFault := true }).bootFault = true ∧ sampleIdent.bootFault = false ∧
    (sampleUnit .switching).failCount < 2 ∧ 2 ≤ ({ sampleUnit .switching with failCount := 2 }).failCount := by
  unfold Awaits; decide +kernel

/-- The sample job told to park, with the window CLOSED. -/
def parkingPart (p : Purpose) (j : Job) : State :=
  { talking (withJob base { j with parking := true }) p .awaiting 3 with
    time := { base.time with window := .closed, countdown := some 300 } }

theorem witness_parking (p : Purpose) (j : Job) (hs : j.slot = 0 ∧ j.serial = 100 ∧ j.imageId = 1) :
    Awaits (parkingPart p j) .A (talk p .awaiting 3) ∧ WindowShut (parkingPart p j) ∧
    JobStands (parkingPart p j) 0 { j with parking := true } (sampleUnit .loading) storedImage ∧
    (parkingPart p j).lineA.state = .active ∧ (parkingPart p j).lineA.charges = [] ∧ (parkingPart p j).lineA.run < 3 := by
  obtain ⟨h1, h2, h3⟩ := hs
  refine ⟨⟨rfl, rfl⟩, ⟨rfl, rfl⟩, ⟨rfl, ?_, ?_, ?_⟩, rfl, rfl, Nat.zero_lt_succ _⟩
  · rw [show ({ j with parking := true } : Job).slot = 0 from h1]; rfl
  · rw [show ({ j with parking := true } : Job).imageId = 1 from h3]; rfl
  · exact h2.symm

/-- The jobs of the FILL, TAKEN and STATE statements park so: STARTING, SENDING, RELEASED with a wait, VERIFYING. -/
theorem witness_parking_jobs : (∀ st, (sampleJob st).slot = 0 ∧ (sampleJob st).serial = 100 ∧ (sampleJob st).imageId = 1) ∧
    0 < (sampleJob .released).busyLimit ∧ (talk (.burst 0 1 2) .awaiting 3).limit ≤ (talk (.burst 0 1 2) .awaiting 3).retries ∧
    ({ sampleJob .verifying with busyLimit := 0 }).busyLimit = 0 :=
  ⟨fun _ => ⟨rfl, rfl, rfl⟩, by decide, by decide, rfl⟩

theorem witness_JobsAreCreatedAndTheLineGranted_creates :
    let s := withLine (withEntry (base.setJob 0 none) (sampleUnit .pending)) fun q => { q with openSet := [] }
    s.jobs.length = 24 ∧ s.job 0 = none ∧ Waits s 0 (sampleUnit .pending) ⟨1, v2, 0, .plan, false⟩ ∧
    ShapeLegal base ∧ NoneWaits base ∧ ∃ t, step { base with pending := [.dropImage .Y 2] } = .next t := by
  refine ⟨by decide, by decide, ⟨rfl, rfl, ?_, by decide, by decide, rfl, storedImage, rfl, rfl⟩,
    ⟨by decide, by decide, by decide, fun p => by cases p <;> decide⟩, .inr ?_, _, rfl⟩
  · have h : ∀ tag, tag < Config.tags → (withLine (withEntry (base.setJob 0 none) (sampleUnit .pending))
        fun q => { q with openSet := [] }).job tag = none := by decide +kernel
    intro tag j k e
    rw [h tag k] at e
    cases e
  · intro i e g hi h
    have hn : ∀ i, i < Config.slots → (base.entry i).all fun e => e.state != .pending := by decide +kernel
    have := hn i hi
    rw [h.1] at this
    simp [h.2.1] at this

/-- A part at a tick whose other line waits for a reply, and whose line A is asked to choose. -/
def granting (s : State) : State :=
  { s with
    lineA := { s.lineA with wake := true }
    lineB := { calmLine with exchange := some (talk .fullProbe .awaiting 0) } }

theorem granting_calm (s : State) (h1 : (granting s).tick.retired = none)
    (h2 : (granting s).tick.freeTag = none ∨ (granting s).tick.waitingSlot = none)
    (h3 : (granting s).tick.tidySweep .A = (granting s).tick) (h4 : (granting s).tick.tidySweep .B = (granting s).tick)
    (h5 : ∀ p, ((granting s).tick.port p).slot = none) (h6 : (granting s).tick.startup.stage = .running) :
    Calm (granting s).tick := calm_of_rfl _ h1 h2 h3 h4 h5 h6

/-- In QUIET, the sample unit STAGED and eligible for SWAP. -/
def swapReady : State := withLine (withEntry (quietPart.setJob 0 none) { sampleUnit .staged with bank1 := ⟨some v2, true⟩ })
  fun q => { q with openSet := [] }

theorem witness_JobsAreCreatedAndTheLineGranted_swap :
    Calm (granting swapReady).tick ∧ LineFree (granting swapReady).tick .A ∧ ((granting swapReady).tick.line .A).wake = true ∧
    ((granting swapReady).tick.line .B).exchange.isSome = true ∧ (granting swapReady).tick.veh.mode = .quiet ∧
    (granting swapReady).tick.activationSlot .A = none ∧ (granting swapReady).tick.sweepOverdue .A = false ∧
    (granting swapReady).tick.duePoll .A = none ∧
    MaySwap (granting swapReady).tick .A 0 { sampleUnit .staged with bank1 := ⟨some v2, true⟩ } ⟨1, v2, 0, .plan, false⟩ :=
  ⟨granting_calm _ (by decide +kernel) (.inr (by decide +kernel)) rfl rfl (fun p => by cases p <;> rfl) rfl,
    ⟨by decide, by decide, rfl⟩, rfl, rfl, rfl, by decide +kernel, by decide +kernel, by decide +kernel,
    ⟨rfl, rfl, rfl, by decide, rfl, rfl⟩⟩

/-- In YARD, the sample job READY with blocks to send, and with none. -/
def readyPart (next : Nat) : State :=
  withLine (withJob base { sampleJob .ready with next := next }) fun q => { q with ready := [0] }

theorem witness_JobsAreCreatedAndTheLineGranted_ready :
    Calm (granting (readyPart 1)).tick ∧ LineFree (granting (readyPart 1)).tick .A ∧
    (granting (readyPart 1)).tick.veh.mode = .yard ∧ ((granting (readyPart 1)).tick.line .A).ready = [] ++ 0 :: [] ∧
    JobStands (granting (readyPart 1)).tick 0 (sampleJob .ready) (sampleUnit .loading) storedImage ∧
    JobStands (granting (readyPart 3)).tick 0 { sampleJob .ready with next := 3 } (sampleUnit .loading) storedImage ∧
    (granting (readyPart 1)).tick.activationSlot .A = none ∧ (granting (readyPart 1)).tick.duePoll .A = none ∧
    (1 < storedImage.length ∧ storedImage.length ≤ 3) :=
  ⟨granting_calm _ (by decide +kernel) (.inr (by decide +kernel)) rfl rfl (fun p => by cases p <;> rfl) rfl,
    ⟨by decide, by decide, rfl⟩, rfl, rfl, ⟨rfl, rfl, rfl, rfl⟩, ⟨rfl, rfl, rfl, rfl⟩, by decide +kernel, by decide +kernel,
    by decide⟩

/-- In YARD, the sample job QUEUED, with a countdown that leaves its estimate of 10,055 ms room and one that does not. -/
def queuedPart (countdown : Option Nat) : State :=
  { withLine (withJob base { sampleJob .queued with busyLimit := 0 }) (fun q => { q with openSet := [], queue0 := [0] }) with
    time := { base.time with countdown := countdown } }

theorem sample_estimate (c : Nat) (hc : c = 900 ∨ c = 302) : Estimated (granting (queuedPart (some c))).tick
    { sampleJob .queued with busyLimit := 0 } (sampleUnit .loading) storedImage 10055 := by
  obtain rfl | rfl := hc <;>
    exact ⟨7305, 2, 55, ⟨by decide, by decide⟩, ⟨by decide, by decide⟩, ⟨by decide, by decide⟩, by decide⟩

theorem witness_JobsAreCreatedAndTheLineGranted_opens :
    Calm (granting (queuedPart (some 900))).tick ∧ LineFree (granting (queuedPart (some 900))).tick .A ∧
    ((granting (queuedPart (some 900))).tick.line .A).queued = [] ++ 0 :: [] ∧
    ((granting (queuedPart (some 900))).tick.line .A).ready = [] ∧
    JobStands (granting (queuedPart (some 900))).tick 0 { sampleJob .queued with busyLimit := 0 } (sampleUnit .loading)
      storedImage ∧
    Admitted (granting (queuedPart (some 900))).tick { sampleJob .queued with busyLimit := 0 } (sampleUnit .loading)
      storedImage ∧
    NotAdmitted (granting (queuedPart (some 302))).tick { sampleJob .queued with busyLimit := 0 } (sampleUnit .loading)
      storedImage ∧
    ((granting (queuedPart (some 900))).tick.line .A).openSet.length < 4 :=
  ⟨granting_calm _ (by decide +kernel) (.inr (by decide +kernel)) rfl rfl (fun p => by cases p <;> rfl) rfl,
    ⟨by decide, by decide, rfl⟩, rfl, rfl, ⟨rfl, rfl, rfl, rfl⟩, .inr ⟨rfl, 899, _, rfl, sample_estimate _ (.inl rfl), by decide⟩,
    ⟨301, rfl, .inr ⟨_, sample_estimate _ (.inr rfl), by decide⟩⟩, by decide⟩

theorem witness_BootTimersRunOut_expired :
    (withEntry base { sampleUnit .fallback with bootTimer := some ⟨60, .first, true⟩ }).entry 0 =
      some { sampleUnit .fallback with bootTimer := some ⟨60, .first, true⟩ } := rfl

theorem witness_LineReadsFillTheBuffer_unwanted :
    let s := withOp base (.lineRead .A ⟨0, 1, 0, 2⟩ true)
    s.opInside = true ∧ s.lineA.exchange = none ∧ Calm s ∧ ∀ l, Asleep s l :=
  ⟨by decide +kernel, rfl, calm_of_rfl _ (by decide +kernel) (.inr (by decide +kernel)) rfl rfl (fun p => by cases p <;> rfl) rfl,
    fun l => by cases l <;> rfl⟩

/-- The recovery hold stands with requests of each class. -/
theorem witness_TheEngineGoesOn_chooses :
    let s := base.modEng fun f => { f with hold := true, checks := [⟨2, 0⟩], class4 := some .settingsErase, class5 := some 9 }
    s.eng.hold = true ∧ s.startup.stage ≠ .deviceReset ∧ s.halted = false ∧ s.eng.op = none ∧ s.eng.suspended = none ∧
    s.wantFlash = s := by decide +kernel

/-- Two open jobs of line A, the first opened earlier, in slots 0 and 1. -/
def openPart (j k : Job) : State :=
  (withLine ((withJob base j).setJob 1 (some { k with slot := 1, serial := 101 })) fun q => { q with openSet := [0, 1] }).setEntry
    1 (some { sampleUnit .loading with address := 2, serial := 101 })

theorem openPart_legal (j k : Job) (h : j.slot = 0) : ∀ l, OpenLegal (openPart j k) l := by
  intro l
  cases l
  · refine ⟨by show [0, 1].Nodup; decide, fun tag _ ht => absurd ht List.not_mem_nil, fun tag ht => ?_⟩
    have ht : tag ∈ [0, 1] := ht
    simp only [List.mem_cons, List.not_mem_nil, or_false] at ht
    rcases ht with rfl | rfl
    · refine ⟨j, sampleUnit .loading, rfl, ?_, rfl, ⟨?_, ?_, ?_⟩, ?_⟩
      · rw [h]; rfl
      all_goals exact List.not_mem_nil
    · refine ⟨{ k with slot := 1, serial := 101 }, _, rfl, rfl, rfl, ⟨?_, ?_, ?_⟩, ?_⟩
      all_goals exact List.not_mem_nil
  · exact ⟨List.nodup_nil, fun tag _ ht => absurd ht List.not_mem_nil, fun tag ht => absurd ht List.not_mem_nil⟩

theorem openPart_keeps (j k : Job) : NoRetiring (openPart j k) := base_no_retiring

/-- Orders and events that park the open jobs at once, given to a part with two of them. -/
theorem witness_Parked : let s := openPart (sampleJob .ready) (sampleJob .starting)
    (s.line .A).openSet = [0, 1] ∧ NoRetiring s ∧ (∀ l, OpenLegal s l) ∧ s.veh.mode = .yard ∧ s.veh.hold = some 300000 ∧
    s.halted = false ∧ accepts s (.setMode .V 0) = true ∧ accepts s (.setMode .V 3) = true ∧
    accepts s (.setLine .Y 0 ⟨1, 1000, 3, 1, 2, 1, 1⟩ 300) = true ∧ s.time.countdown = none :=
  ⟨rfl, openPart_keeps _ _, openPart_legal _ _ rfl, rfl, rfl, rfl, rfl, rfl, rfl, rfl⟩

/-- The fourth failure in a row is the first job's; the second parks. -/
theorem witness_FourthFailureFaultsTheLine_parks :
    let s := withLine (talking (openPart (sampleJob .sending) (sampleJob .starting)) (.burst 0 1 2) .awaiting 3) fun q => { q with run := 3 }
    Awaits s .A (talk (.burst 0 1 2) .awaiting 3) ∧ s.lineA.run = 3 ∧ CountsAgainst s .A (talk (.burst 0 1 2) .awaiting 3) ∧
    NoRetiring s ∧ OpenLegal s .A ∧ 1 ∈ s.lineA.openSet ∧ s.job 0 = some (sampleJob .sending) ∧
    s.job 1 = some { sampleJob .starting with slot := 1, serial := 101 } :=
  ⟨⟨rfl, rfl⟩, rfl, .inl ⟨0, rfl, rfl⟩, base_no_retiring, ⟨(openPart_legal (sampleJob .sending) (sampleJob .starting) rfl .A).once,
    fun _ _ ht => absurd ht List.not_mem_nil, (openPart_legal (sampleJob .sending) (sampleJob .starting) rfl .A).job⟩,
    by decide, rfl, rfl⟩

/-- The part a second before its cutoff, and at it. -/
def closing (c : Nat) (s : State) : State := { s with time := { s.time with countdown := some c } }

/-- Each row of R56's table: a job that parks at once or is told to park. -/
theorem witness_CutOff (p : Purpose) (ph : Phase) : let s := openPart (sampleJob .released) (sampleJob .verifying)
    ParksAtCutoff s .A 0 (sampleJob .ready) ∧ ParksAtCutoff s .A 0 (sampleJob .released) ∧
    ParksAtCutoff (withLine s fun q => { q with
      exchange := some { talk (.burst 0 0 2) .reading 0 with framesOut := false } }) .A 0 (sampleJob .sending) ∧
    FlaggedAtCutoff (talking s p ph 0) .A 0 (sampleJob .starting) ∧
    FlaggedAtCutoff (talking s (.poll 0) .awaiting 0) .A 0 (sampleJob .verifying) ∧
    FlaggedAtCutoff (talking s (.check 0) .awaiting 0) .A 0 (sampleJob .sending) ∧
    FlaggedAtCutoff (withLine s fun q => { q with
      exchange := some { talk (.burst 0 0 2) .awaiting 0 with framesOut := true } }) .A 0 (sampleJob .sending) :=
  ⟨.inl rfl, .inr (.inl ⟨.inl rfl, nofun⟩), .inr (.inr ⟨rfl, _, 0, 2, rfl, rfl, rfl⟩), .inl rfl,
    .inr (.inl ⟨.inr rfl, _, rfl, rfl⟩), .inr (.inr ⟨rfl, _, rfl, .inl rfl⟩),
    .inr (.inr ⟨rfl, _, rfl, .inr ⟨0, 2, rfl, rfl⟩⟩)⟩

/-- The tick from 301 to the guard of 300, WINDOW_CUTOFF at 300, and a guard raised to 301: one job READY, one STARTING. -/
theorem witness_TicksAndCutoffsJudgeTheWindow_parks : let s := closing 301 (openPart (sampleJob .ready) (sampleJob .starting))
    s.time.window = .opened ∧ s.guardTime = 300 ∧ (closing 300 s).time.countdown = some 300 ∧
    accepts s (.setLine .Y 0 ⟨1, 1000, 3, 4, 2, 1, 1⟩ 301) = true ∧ (s.line .A).settings.openLimit = 4 ∧
    (∀ tag j, tag ∈ (s.line .A).openSet → s.job tag = some j → ParksAtCutoff s .A tag j ∨ FlaggedAtCutoff s .A tag j) ∧
    (s.line .B).openSet = [] := by
  refine ⟨rfl, rfl, rfl, rfl, rfl, fun tag j ht hj => ?_, rfl⟩
  have ht : tag ∈ [0, 1] := ht
  simp only [List.mem_cons, List.not_mem_nil, or_false] at ht
  rcases ht with rfl | rfl <;> cases hj
  · exact .inl (.inl rfl)
  · exact .inr (.inl rfl)

/-- Line A with two LOADING units, their jobs open, is disabled. -/
theorem witness_SetLineStoresClampedSettings_disables : let s := openPart (sampleJob .ready) (sampleJob .starting)
    accepts s (.setLine .Y 0 ⟨1, 1000, 3, 4, 2, 1, 0⟩ 300) = true ∧ (s.line .A).state ≠ .disabled ∧ TagsStand s .A ∧
    NoRetiring s ∧ s.job 0 = some (sampleJob .ready) ∧ s.entry 0 = some (sampleUnit .loading) ∧
    (sampleUnit .loading).serial = (sampleJob .ready).serial ∧ s.image 1 = some storedImage ∧ storedImage.state = .stored := by
  refine ⟨rfl, by decide, fun tag ht => ?_, openPart_keeps _ _, rfl, rfl, rfl, rfl, rfl⟩
  have ht : tag ∈ [0, 1] := by
    rcases ht with h | h | h
    · exact h
    · exact absurd h List.not_mem_nil
    · exact absurd h List.not_mem_nil
  simp only [List.mem_cons, List.not_mem_nil, or_false] at ht
  rcases ht with rfl | rfl
  · exact ⟨by decide, _, _, rfl, rfl, rfl⟩
  · exact ⟨by decide, _, _, rfl, rfl, rfl⟩

/-- The numbers of an image whose fields fit: the second block's identity fields hold position 0 of 1 extent. -/
theorem witness_WriteBlockRequestsItsPrograms_fields : 2 < 65536 ∧ intakeImage.version.major < 256 ∧
    intakeImage.version.minor < 256 ∧ intakeImage.version.build < 65536 ∧ intakeImage.length ≤ 4080 ∧ IsCeil 2 15 1 ∧
    IsCeil 15 15 1 ∧ IsCeil 16 15 2 := by unfold IsCeil; decide

theorem witness_DropImageByState_drops : base.image 1 = some storedImage ∧ storedImage.state = .stored ∧
    storedImage.extents[0]? = some 10 ∧ accepts base (.dropImage .S 1) = true := by decide +kernel

/-- A reply that a later order replaced: the port has taken one order more than the block's. -/
theorem witness_IntakeProgramsLandOrDamage_superseded :
    (withOp (base.modPort .Y fun q => { q with seq := 1 }) (.program blockProgram)).opInside = true ∧
    ((base.modPort .Y fun q => { q with seq := 1 }).port .Y).seq ≠ (⟨.Y, 0⟩ : Ticket).seq := by decide +kernel

/-- Image 2 dropped from CHECKING while its mark is pending, under its close mark and under its drop mark. -/
def droppedImage : Image := { intakeImage with state := .checking, markPending := true, dropped := true, droppers := [⟨.S, 0⟩] }

theorem witness_MarksDecideTheImage_dropped :
    (withOp (withImage base droppedImage) (.program markProgram)).opInside = true ∧
    (withOp (withImage base droppedImage) (.program dropProgram)).opInside = true ∧
    (withImage base droppedImage).image 2 = some droppedImage ∧ droppedImage.extents[0]? = some 20 ∧
    NoRetiring (withImage base droppedImage) ∧ (base.port .S).seq = 0 :=
  ⟨by decide +kernel, by decide +kernel, by decide +kernel, rfl, by unfold NoRetiring; decide +kernel, rfl⟩

theorem witness_ErasesAndLimitsEndTheirOperation_programs :
    (withOp base (.program dropProgram)).opInside = true ∧ (withOp base (.program dropProgram)).eng.suspended = none ∧
    (Calm (saving .settingsErase) ∧ ∀ l, Asleep (saving .settingsErase) l) ∧
    (let s := withOp { base with store := { base.store with dirty := [50] } } (.program blockProgram);
      (s.modEng fun f => { f with suspended := some (.erase 50) }).opInside = true ∧ s.store.dirty.head? = some 50) ∧
    (let s := saving (.program blockProgram);
      (s.modEng fun f => { f with suspended := some .settingsErase }).opInside = true ∧ s.settings.op = .saving .Y) :=
  ⟨by decide +kernel, rfl, ⟨calm_of_rfl _ (by decide +kernel) (.inr (by decide +kernel)) rfl rfl (fun p => by cases p <;> rfl) rfl,
    fun l => by cases l <;> rfl⟩, ⟨by decide +kernel, rfl⟩, by decide +kernel, rfl⟩

/-- A running erase with its count at 31 and at 32: orders whose requests come while it runs, of a higher class and not. -/
theorem witness_TheEngineGoesOn_suspends : let s (n : Nat) := erasing.modEng fun f => { f with suspCount := n }
    accepts (s 31) (.writeBlock .Y 2 1 []) = true ∧ accepts (s 32) (.saveSettings .Y) = true ∧
    accepts (s 32) (.reloadSettings .Y) = true ∧ (s 31).wantFlash = s 31 ∧ (s 31).eng.suspending = false ∧
    (s 31).eng.hold = false ∧ (s 31).halted = false ∧ (s 31).image 2 = some intakeImage ∧
    intakeImage.blocks[1]? = some .missing ∧ (s 31).eng.readA = none ∧ (s 31).eng.readB = none ∧ (s 31).eng.programs = [] ∧
    (s 31).eng.checks = [] ∧ (s 31).eng.class4 = none ∧
    accepts (withImage (s 32) { intakeImage with received := 2 }) (.closeImage .Y 2) = true ∧
    (withImage (s 32) { intakeImage with received := 2 }).eng.checking 2 = false := by decide +kernel

/-- A block's program under a suspended erase, with no other request and with one; a suspended erase with requests of
classes 3 and 4, and with none. -/
theorem witness_TheEngineGoesOn_resumes :
    (let s := (withOp base (.program blockProgram)).modEng fun f => { f with suspended := some (.erase 50), suspCount := 32 };
      s.opInside = true ∧ s.eng.hold = false ∧ s.halted = false ∧ ∃ t, exec (.pageProgramDone true) s = .next t) ∧
    (let s := erasing.modEng fun f => { f with suspending := true, checks := [⟨2, 0⟩], class4 := some (.settingsPage 1) };
      s.wantFlash = s ∧ s.eng.suspending = true ∧ (FlashOp.settingsPage 1).isErase = false ∧
      FlashOp.erase 50 ≠ .settingsErase ∧ erasing.eng.checks = [] ∧ erasing.eng.class4 = none) :=
  ⟨⟨by decide +kernel, rfl, rfl, _, rfl⟩, by decide +kernel⟩

/-- A unit LOADING on line A, which no loaded serial names, at a reload. -/
theorem witness_SettingsAndTagsAreRead_resolves :
    let s : State := { withOp base .settingsRead with settings := { op := .reloading .Y, snapshot := [] } }
    DirectoryLegal s ∧ s.entry 0 = some (sampleUnit .loading) ∧ (sampleUnit .loading).serial ∉ factorySet.heldSerials ∧
    factorySet.lineA.enable = 1 ∧ NoRetiring s :=
  ⟨⟨by decide, by decide⟩, rfl, by decide, by decide, base_no_retiring⟩

theorem witness_SetProfileStoresTheProfile_resolves : DirectoryLegal base ∧ NoRetiring base ∧
    accepts base (.setProfile .Y 3 ⟨1, 1, 4, 500, 20, 10, 60⟩) = true := ⟨base_directory, base_no_retiring, rfl⟩

/-! ### States that meet the invariants of the store and of the job pool -/

/-- `FlightFits`, to be evaluated. -/
def flightFits (p : Purpose) (j : Job) (r : Image) : Bool :=
  match p with
  | .load _ _ => j.state == .starting
  | .burst _ first count => j.state == .sending && decide (first + count ≤ r.length)
  | .check _ => j.state == .sending
  | .poll _ => j.state == .released || j.state == .verifying
  | _ => true

theorem flightFits_sound (p : Purpose) (j : Job) (r : Image) (h : flightFits p j r = true) : FlightFits p j r := by
  cases p <;> simp_all [flightFits, FlightFits]

/-- A tag names a job of a unit of a line. -/
abbrev TagNamed (s : State) (l : Line) (tag : Nat) : Prop :=
  tag < Config.tags ∧ ∃ j ∈ s.job tag, ∃ e ∈ s.entry j.slot, e.line = l

/-- What `PoolLegal` says of one job. -/
abbrev JobChecks (s : State) (tag : Nat) (j : Job) : Prop :=
  (∃ e ∈ s.entry j.slot, e.serial = j.serial ∧ (e.state = .pending ∧ j.state = .queued ∧ j.everOpened = false ∨
    e.state = .loading ∧ j.everOpened = true)) ∧
  (∀ n ∈ List.range s.jobs.length, ∀ i ∈ s.job n, j.slot = i.slot → tag = n) ∧
  (∃ r ∈ s.image j.imageId, (r.state = .stored ∨ r.state = .retiring) ∧ j.next ≤ r.length) ∧
  (∀ e ∈ s.entry j.slot, (j.state = .queued → tag ∈ (s.line e.line).queue j.prio) ∧
    (j.state ≠ .queued → tag ∈ (s.line e.line).openSet) ∧ (j.state = .ready → tag ∈ (s.line e.line).ready))

/-- What `PoolLegal` says of one line. -/
abbrev LineChecks (s : State) (l : Line) : Prop :=
  ((s.line l).openSet.Nodup ∧ (s.line l).queued.Nodup ∧ (s.line l).ready.Nodup) ∧
  (s.line l).openSet.length ≤ (s.line l).settings.openLimit ∧
  (∀ tag ∈ (s.line l).openSet, TagNamed s l tag ∧ (tag ∉ (s.line (otherLine l)).openSet ∧
    tag ∉ (s.line (otherLine l)).ready ∧ tag ∉ (s.line (otherLine l)).queued) ∧ tag ∉ (s.line l).queued) ∧
  (∀ tag ∈ (s.line l).ready, TagNamed s l tag ∧ ∀ j ∈ s.job tag, j.state = .ready) ∧
  (∀ tag ∈ (s.line l).queued, TagNamed s l tag ∧ ∀ j ∈ s.job tag, j.state = .queued) ∧
  ∀ x ∈ (s.line l).exchange, ∀ tag ∈ x.purpose.tag, tag ∈ (s.line l).openSet ∧
    ∀ j ∈ s.job tag, ∀ r ∈ s.image j.imageId, flightFits x.purpose j r = true

/-- `PoolLegal` with its quantifiers bounded by the slots, the tags and the directory, to be evaluated. -/
def poolChecks (s : State) : Bool :=
  s.linesRun && decide (∀ tag ∈ List.range s.jobs.length, ∀ j ∈ s.job tag, JobChecks s tag j) &&
  decide (∀ i ∈ List.range s.roster.length, ∀ e ∈ s.entry i, e.state = .loading →
    ∃ tag ∈ List.range s.jobs.length, ∃ j ∈ s.job tag, j.slot = i) &&
  decide (∀ r ∈ s.store.images, r.jobCount = s.jobsNaming r.id) && decide (LineChecks s .A) && decide (LineChecks s .B)

theorem job_in_range {s : State} {tag : Nat} {j : Job} (h : s.job tag = some j) : tag ∈ List.range s.jobs.length := by
  rw [List.mem_range]
  by_contra hn
  simp [State.job, List.getElem?_eq_none (Nat.le_of_not_lt hn)] at h

theorem entry_in_range {s : State} {i : Nat} {e : Entry} (h : s.entry i = some e) : i ∈ List.range s.roster.length := by
  rw [List.mem_range]
  by_contra hn
  simp [State.entry, List.getElem?_eq_none (Nat.le_of_not_lt hn)] at h

theorem pool_of_checks {s : State} (h : poolChecks s = true) : PoolLegal s := by
  simp only [poolChecks, Bool.and_eq_true, decide_eq_true_eq] at h
  obtain ⟨⟨⟨⟨⟨run, jobs⟩, loading⟩, counts⟩, ha⟩, hb⟩ := h
  have lines : ∀ l, LineChecks s l := fun l => by cases l <;> assumption
  refine
    { empty := fun h => absurd (h.symm.trans run) nofun
      owner := fun tag j hj => (jobs tag (job_in_range hj) j hj).1
      single := fun m n i j hi hj e => (jobs m (job_in_range hi) i hi).2.1 n (job_in_range hj) j hj e
      loading := fun i e he hs => ?_
      image := fun tag j hj => (jobs tag (job_in_range hj) j hj).2.2.1
      counts := counts
      place := fun tag j e hj he => (jobs tag (job_in_range hj) j hj).2.2.2 e he
      queued := fun l tag j ht hj => ((lines l).2.2.2.2.1 tag ht).2 j hj
      once := fun l => (lines l).1.2
      tags := fun l tag ht => ?_
      sets := fun l => ⟨(lines l).1.1, fun tag j ht hj => ((lines l).2.2.2.1 tag ht).2 j hj,
        fun tag ht => ?_⟩
      limit := fun l => (lines l).2.1
      flight := fun l x tag hx ht => ?_ }
  · obtain ⟨tag, -, j, hj, e⟩ := loading i (entry_in_range he) e he hs
    exact ⟨tag, j, hj, e⟩
  · have hn : tag < Config.tags ∧ ∃ j ∈ s.job tag, ∃ e ∈ s.entry j.slot, e.line = l := by
      rcases ht with h | h | h
      · exact ((lines l).2.2.1 tag h).1
      · exact ((lines l).2.2.2.1 tag h).1
      · exact ((lines l).2.2.2.2.1 tag h).1
    obtain ⟨hn, j, hj, e, he, hl⟩ := hn
    exact ⟨hn, j, e, hj, he, hl⟩
  · obtain ⟨⟨-, j, hj, e, he, hl⟩, ho, hq⟩ := (lines l).2.2.1 tag ht
    exact ⟨j, e, hj, he, hl, ho, hq⟩
  · obtain ⟨ho, hf⟩ := (lines l).2.2.2.2.2 x hx tag ht
    exact ⟨ho, fun j r hj hr => flightFits_sound _ _ _ (hf j hj r hr)⟩

/-- The part with every extent in its place, extent 50 DIRTY and being erased, and both programs of image 2 asked for. -/
def stocked : State :=
  { queueing erasing [tagProgram, blockProgram] with
    store :=
      { images := [storedImage, { intakeImage with blocks := [.received, .writing] }]
        free := List.range' 1 9 ++ List.range' 11 9 ++ List.range' 21 29 ++ List.range' 51 1997
        dirty := [50]
        bad := [] } }

theorem stocked_pool : (stocked.store.free ++ stocked.store.dirty ++ stocked.store.bad ++ stocked.owned).Perm
    (List.range' 1 2047) := by
  have h : List.range' 1 2047 = List.range' 1 9 ++ [10] ++ List.range' 11 9 ++ [20] ++ List.range' 21 29 ++ [50] ++
      List.range' 51 1997 := by decide +kernel
  rw [h, List.perm_iff_count]
  intro a
  show (List.range' 1 9 ++ List.range' 11 9 ++ List.range' 21 29 ++ List.range' 51 1997 ++ [50] ++ [] ++ [10, 20]).count a = _
  simp only [List.count_append, List.count_cons, List.count_nil]
  omega

theorem stocked_legal : StoreLegal stocked where
  blank := nofun
  pool _ := stocked_pool
  scan x h := h.elim nofun nofun
  oneScan _ _ := nofun
  begun := nofun
  four _ := nofun
  suspended _ := nofun
  erase := by decide
  wanted := by decide
  fits p hp := by
    have hp : p ∈ [tagProgram, blockProgram] := hp
    simp only [List.mem_cons, List.not_mem_nil, or_false] at hp
    rcases hp with rfl | rfl
    · exact ⟨{ intakeImage with blocks := [.received, .writing] }, rfl, rfl⟩
    · exact ⟨{ intakeImage with blocks := [.received, .writing] }, rfl, rfl, rfl⟩
  apart := by
    refine List.Pairwise.cons (fun q hq => ?_) (List.pairwise_singleton _ _)
    obtain rfl : q = blockProgram := List.mem_singleton.1 hq
    exact fun _ => ⟨.inl rfl, .inr ⟨1, ⟨.Y, 0⟩, rfl⟩, nofun⟩
  follows pre p post h hk := by
    have h : [tagProgram, blockProgram] = pre ++ p :: post := h
    match pre, h with
    | [], h =>
      obtain ⟨rfl, rfl⟩ := List.cons.inj h
      exact ⟨blockProgram, List.mem_singleton.2 rfl, rfl, 1, ⟨.Y, 0⟩, rfl⟩
    | [_], h =>
      obtain ⟨-, h⟩ := List.cons.inj h
      obtain ⟨rfl, -⟩ := List.cons.inj h
      cases hk
    | _ :: _ :: pre, h =>
      have := congrArg List.length h
      simp at this
  checks := ⟨by decide, nofun⟩
  counted := by decide
  whole := by decide

/-- The state right after a full reset, and one at work: an erase, two programs, an open job. -/
theorem witness_StepsKeepTheStoreLegal : StartUpLegal stocked ∧ DirectoryLegal stocked ∧ StoreLegal stocked ∧
    ∃ t, step { stocked with pending := [.oneSecondTick] } = .next t :=
  ⟨⟨nofun, nofun, nofun, nofun, fun l => by cases l <;> nofun⟩, ⟨by decide, by decide⟩, stocked_legal, _, rfl⟩

theorem witness_StepsKeepTheJobPoolLegal : ShapeLegal stocked ∧ StartUpLegal stocked ∧ ExchangeLegal stocked ∧
    DirectoryLegal stocked ∧ StoreLegal stocked ∧ PoolLegal stocked ∧ (stocked.line .A).openSet = [0] ∧
    ∃ t, step { stocked with pending := [.resetLine .Y 0] } = .next t :=
  ⟨⟨by decide, by decide, by decide, fun p => by cases p <;> decide⟩,
    ⟨nofun, nofun, nofun, nofun, fun l => by cases l <;> nofun⟩, fun l x h => by cases l <;> (cases h),
    ⟨by decide, by decide⟩, stocked_legal, pool_of_checks (by decide +kernel), rfl, _, rfl⟩

/-- The sample job in a state, its exchange waiting for a reply for the fourth time. -/
def working (p : Purpose) (j : Job) : State := talking (withJob base j) p .awaiting 3

/-- The job of each exchange that ends in a failure, a unit fault or a PASS. -/
theorem witness_JobEnded : let wait (st : JobState) : Job := { sampleJob st with wait := some .burst, busyElapsed := 2881 }
    (∀ m, PoolLegal (working (.load 0 m) (sampleJob .starting))) ∧ PoolLegal (working (.burst 0 1 2) (sampleJob .sending)) ∧
    PoolLegal (working (.check 0) (sampleJob .sending)) ∧ PoolLegal (working (.poll 0) (wait .released)) ∧
    PoolLegal (working (.poll 0) (sampleJob .verifying)) ∧
    PoolLegal (withLine (working (.poll 0) (wait .released)) fun q => { q with run := 3 }) ∧
    (∀ p j, NoRetiring (working p j) ∧ DirectoryLegal (working p j)) ∧ (sampleUnit .loading).state = .loading ∧
    (sampleUnit .loading).failCount < 2 ∧ base.image 1 = some storedImage :=
  ⟨fun m => by cases m <;> exact pool_of_checks (by decide +kernel), pool_of_checks (by decide +kernel),
    pool_of_checks (by decide +kernel), pool_of_checks (by decide +kernel), pool_of_checks (by decide +kernel),
    pool_of_checks (by decide +kernel), fun _ _ => ⟨base_no_retiring, base_directory⟩, rfl, by decide, rfl⟩

/-- The same job with its target's image RETIRING, and with its target gone from the directory: resolution decides. -/
theorem witness_FellBack : (sampleUnit .loading).target = some ⟨1, v2, 0, .plan, false⟩ ∧
    (∀ r, base.image 1 = some r → r.state = .stored) ∧
    (let s := { base with store := { base.store with images := [intakeImage] } };
      NoRetiring s ∧ DirectoryLegal s ∧ ∀ r, s.image 1 = some r → r.state ≠ .stored) :=
  ⟨rfl, fun r h => by cases h; rfl, by unfold NoRetiring; decide, ⟨by decide, by decide⟩, nofun⟩

/-- Two units of line A with the image as their target, in a part in IN_SERVICE, where none is opened: the first with a job of
class 0, parked or never opened, the second with a job of class 1 never opened. -/
def queueingJobs (parked : Bool) : State :=
  { base with
    veh := { mode := .inService, hold := none, cause := none, asserted := false, run := 0 }
    roster := [some (sampleUnit (if parked then .loading else .pending)),
      some { sampleUnit .pending with
        address := 2, serial := 101, target := some ⟨1, v2, 1, .pin, false⟩, yardPin := some ⟨1, 1, false⟩ }] ++
      List.replicate 30 none
    jobs := [some { sampleJob .queued with next := if parked then 1 else 0, everOpened := parked, busyLimit := 0 },
      some { sampleJob .queued with
        slot := 1, serial := 101, next := 0, prio := 1, everOpened := false, busyLimit := 0 }] ++ List.replicate 22 none
    lineA := { calmLine with queue0 := [0], queue1 := [1] }
    store := { base.store with images := [{ storedImage with jobCount := 2 }, intakeImage] } }

/-- The rows of R37's table have their cases: the plan and the pin orders over units with jobs open, parked and never opened,
whose target keeps the image, changes its class, names another image, or is gone. -/
theorem witness_JobsResolved : PoolLegal base ∧ PoolLegal { base with rules := [] } ∧ NoRetiring base ∧
    (∀ b, PoolLegal (queueingJobs b) ∧ NoRetiring (queueingJobs b) ∧ DirectoryLegal (queueingJobs b)) ∧
    PoolLegal (withEntry base { sampleUnit .loading with servicePin := some ⟨1, 3, true⟩ }) ∧
    PoolLegal (withEntry base { sampleUnit .loading with yardPin := some ⟨65535, 0, false⟩ }) ∧
    (∀ b, accepts (queueingJobs b) (.pinUnit .Y 0 1 1 0) = true) :=
  ⟨pool_of_checks (by decide +kernel), pool_of_checks (by decide +kernel), base_no_retiring,
    fun b => by cases b <;> exact ⟨pool_of_checks (by decide +kernel), by unfold NoRetiring; decide, by decide, by decide⟩,
    pool_of_checks (by decide +kernel), pool_of_checks (by decide +kernel), fun b => by cases b <;> decide⟩

/-- The same two units, where the first is given class 1 by a pin: a parked job goes to the head of its new queue, one never
opened to the tail (R37), the other job standing there as it did. A pin to an image that is not there removes its job, and the image's
count falls (R37, R58). -/
theorem test_pins_and_jobs : (∀ b, afterIs (.pinUnit .Y 0 1 1 0) (queueingJobs b) fun t =>
    t.lineA.queue0 == [] && t.lineA.queue1 == (if b then [0, 1] else [1, 0]) &&
      (t.job 0).any (fun j => j.prio == 1 && j.next == if b then 1 else 0) && (t.job 1) == (queueingJobs b).job 1 &&
      (t.image 1).any fun r => r.jobCount == 2) ∧ afterIs (.pinUnit .Y 0 65535 0 0) (queueingJobs true) fun t =>
    t.job 0 == none && t.lineA.queue0 == [] && (t.image 1).any (fun r => r.jobCount == 1) &&
      (t.entry 0).any fun e => e.state == .inStep && e.target == none := by decide +kernel

/-! ### Ends of sweeps -/

/-- Line A at the full-sweep probe of an address, a SWEEP NOW of the Yard port outstanding on it alone and one of the Service
port on both lines. -/
def covered (n retries run : Nat) : State :=
  (withLine base fun q => { q with
    exchange := some { talk .fullProbe .awaiting retries with address := n }, sweep := some ⟨.full, n, 0, false⟩
    run := run }).modPort .Y (fun q => { q with slot := some (.sweepNow .outstanding (.ended .cut)) }) |>.modPort .S
      fun q => { q with slot := some (.sweepNow .outstanding .outstanding) }

/-- The start-up phase in its sweeps: that of line A not ended, at address 47, and that of line B ended or not. -/
def startingSweeps (other : Bool) : State :=
  { covered 47 3 0 with
    startup := { stage := .sweeps, intakeLost := true, loadFailed := false, scanned := [] }
    lineA := { (covered 47 3 0).lineA with startSweep := true }
    lineB := { calmLine with startSweep := other } }

/-- The last probe of a covered sweep and the one before it, answered and not; the same with the run at 3, at an address that
an entry holds; and in the start-up phase. -/
theorem witness_SweepParts : (∀ n, n = 46 ∨ n = 47 → (covered n 3 0).slotAt .A n = none) ∧
    (covered 47 3 0).lineA.sweep = some ⟨.full, 47, 0, false⟩ ∧ (covered 47 3 0).lineA.rosterDue = false ∧
    Awaits (covered 47 3 0) .A { talk .fullProbe .awaiting 3 with address := 47 } ∧
    Awaits (covered 46 3 0) .A { talk .fullProbe .awaiting 3 with address := 46 } ∧
    ((covered 47 3 0).port .Y).slot = some (.sweepNow .outstanding (.ended .cut)) ∧
    ((covered 47 3 0).port .S).slot = some (.sweepNow .outstanding .outstanding) ∧
    (∀ a b, ((covered 47 3 0).port .V).slot ≠ some (.sweepNow a b)) ∧
    (∀ p, ((covered 47 3 0).port p).flags[13]? = some ⟨false, 0, none⟩) ∧ (covered 47 3 0).roster.length = 32 ∧
    (let s := withEntry (covered 47 3 3) { sampleUnit .loading with address := 47 };
      s.lineA.run = 3 ∧ CountsAgainst s .A { talk .fullProbe .awaiting 3 with address := 47 }) ∧
    (covered 1 3 3).lineA.run = 3 ∧ CountsAgainst (covered 1 3 3) .A { talk .fullProbe .awaiting 3 with address := 1 } ∧
    (∀ b, (startingSweeps b).startup.stage = .sweeps ∧ ((startingSweeps b).line .A).startSweep = true ∧
      ((startingSweeps b).line .B).startSweep = b) ∧
    (∀ p, accepts (covered 1 3 0) (.setLine .Y 0 ⟨1, 1000, 3, 4, 2, 1, p⟩ 300) = true) ∧
    accepts (covered 1 3 0) (.resetLine .S 0) = true := by
  refine ⟨by rintro n (rfl | rfl) <;> decide +kernel, rfl, rfl, ⟨rfl, rfl⟩, ⟨rfl, rfl⟩, rfl, rfl, nofun,
    fun p => by cases p <;> rfl, rfl, ⟨rfl, .inr (.inr ⟨rfl, by decide +kernel⟩)⟩, rfl, .inr (.inr ⟨rfl, by decide +kernel⟩),
    fun b => ⟨rfl, rfl, rfl⟩, fun p => rfl, rfl⟩

/-- Disabling a covered line cuts its part off (R17, R86). -/
theorem test_sweep_cut : afterIs (.setLine .Y 0 ⟨1, 1000, 3, 4, 2, 1, 0⟩ 300) (covered 20 3 0) fun t =>
    t.portY.slot == none && (t.portY.flags[13]?).any (fun f => f.qual == some (.sweepDone .cut .cut)) &&
      t.portS.slot == some (.sweepNow (.ended .cut) .outstanding) := by decide +kernel
/-- The end of a covered full sweep posts SWEEP_DONE to the port whose last part it was, and to no other (R17, R168). The last
start-up sweep ends the start-up phase, with STARTED on every port; while another is left it does not (R177). -/
theorem test_full_sweep_ends : afterIs (.noReply .A) (covered 47 3 0) (fun t =>
      t.portY.slot == none && (t.portY.flags[13]?).any (fun f => f.qual == some (.sweepDone .complete .cut)) &&
        t.portS.slot == some (.sweepNow (.ended .complete) .outstanding) && (t.portS.flags[13]?).any fun f => !f.isSet) ∧
    afterIs (.noReply .A) (startingSweeps false) (fun t => t.startup.stage == .running &&
      (t.portV.flags[0]?).any fun f => f.qual == some (.started true false)) ∧
    afterIs (.noReply .A) (startingSweeps true) (fun t => t.startup.stage == .sweeps && (t.portV.flags[0]?).any fun f => !f.isSet) := by
  decide +kernel

/-- A reload while another port's SWEEP NOW is outstanding, and the end of the scan with no line ACTIVE and with one. -/
theorem witness_SettingsAndTagsAreRead_sweeps :
    (let s := { withOp (covered 20 0 0) .settingsRead with settings := { op := .reloading .V, snapshot := [] } };
      s.opInside = true ∧ s.settings.op = .reloading .V ∧ ∀ a b, (s.port .V).slot ≠ some (.sweepNow a b)) ∧
    (let s : State := { withOp startingPart (.tagRead 2047) with
        lineA := { calmLine with state := .disabled }, lineB := { calmLine with state := .disabled } };
      s.opInside = true ∧ StartUpLegal { s with settings := { op := .idle, snapshot := [] } } ∧
        (∀ l, (s.line l).startSweep = false) ∧ ∀ l, (s.line l).state ≠ .active) ∧
    (let s : State := { withOp startingPart (.tagRead 2047) with lineA := { calmLine with startSweep := true } };
      s.opInside = true ∧ (s.line .A).startSweep = true) :=
  ⟨⟨by decide +kernel, rfl, nofun⟩,
    ⟨by decide +kernel, ⟨nofun, nofun, nofun, nofun, fun l => by cases l <;> nofun⟩, fun l => by cases l <;> rfl,
      fun l => by cases l <;> decide⟩, by decide +kernel, rfl⟩

/-! ### Further cases -/

/-- An order field outside its encoding: a departure given as absent, with a value (R181). -/
theorem test_departure_absent_with_value : answers (.setDeparture .V 0 5) base .V = some .range ∧
    answers (.setDeparture .V 0 0) base .V = some .done := by decide +kernel
/-- A LOADING unit keeps its target by its image's id, whatever the image's directory state (R35). -/
theorem test_target_retained : (base.usable (sampleUnit .loading) 1 == .retained v2) = true ∧
    (base.usable (sampleUnit .pending) 1 == .stored storedImage) = true := by decide +kernel
/-- A busy limit of 0 is ended by the first busy STATE, with no tick between (R72). -/
theorem test_busy_limit_zero : afterIs (.stateReceived .A ⟨true, .check, 0, 3, .noResult, .noFault⟩)
    (talking (withJob base { sampleJob .verifying with next := 3, busyLimit := 0 }) (.poll 0) .awaiting 0) fun t =>
      !((t.job 0).any fun j => j.state == .verifying) && t.lineA.stats.goodReplies == 1 := by decide +kernel
/-- The frame of a SWAP names the version the exchange began with, also once the unit has no target (R68, R107). -/
theorem test_swap_frame_is_kept :
    let s := withLine base fun q => { q with exchange := some { talk (.swap 0) (.sending 0) 0 with expected := some v2 } }
    (withEntry s { sampleUnit .staged with target := none }).onWire .A = (withEntry s (sampleUnit .staged)).onWire .A ∧
      (s.onWire .A).isSome = true := by decide +kernel
/-- An IDENT with a boot fault taken before an expiry that came with it leaves the expiry to be handled (R110). -/
theorem test_expiry_after_ident : afterIs (.identReceived .A { sampleIdent with bootFault := true, bank0 := ⟨some v2, true⟩ })
    (talking (withEntry base { sampleUnit .switching with bootTimer := some ⟨0, .first, false⟩ })
      (.activationProbe 0) .awaiting 0) fun t =>
    (t.entry 0).any fun e => e.state == .fallback && e.bootTimer == some ⟨60, .first, true⟩ := by decide +kernel
/-- The scan of an erased tag, image 3's one extent, a broken tag, and image 4's first of two extents (R140). -/
def sampleScan : List (Nat × TagClass) :=
  [(1, .erased), (2, .wellFormed ⟨3, v2, 15, 0, 1, some (7, 1, 0, 9), false⟩), (3, .broken),
    (4, .wellFormed ⟨4, v2, 16, 0, 2, some (7, 1, 0, 9), false⟩)]
theorem test_scan_rebuilds : let b := rebuiltStore sampleScan
    b.free = [1] ∧ b.dirty = [3, 4] ∧ (b.images.map fun r => (r.id, r.extents, r.length)) = [(3, [2], 15)] ∧
      intakeLost sampleScan = false := by decide +kernel
/-- A tag cut off before its CRC is broken, and one that was never programmed is erased (R139). -/
theorem test_tags_are_classed : classifyTag (List.replicate 256 0xFF) = .erased ∧
    classifyTag (0 :: 3 :: List.replicate 254 0xFF) = .broken := by decide +kernel

end Sys2Proof.Tests
end

section
/-!
SUPPORT and PROOF. How an order is taken on a management port (R161 to R165): what placing a reply leaves of the port, which
check bars an order, and what an order that only answers leaves of the state. From these, READ PLAN (R27).
-/

namespace Sys2Proof.Machine

open Sys2Proof

/-! ### Placing a reply (R161) -/

/-- Placing a reply writes the reply buffer and, on the Service port, what is being sent or waits to be; no other field. -/
theorem PortState.placed_eq (q : PortState) (p : Port) (r : Reply) :
    q.placed p r = { q with
      reply := some r, delivered := false, sending := (q.placed p r).sending, unsent := (q.placed p r).unsent } := by
  cases p
  case Y | V => rfl
  case S =>
    unfold PortState.placed
    cases q.sending <;> rfl

theorem replied_placed (q : PortState) (p : Port) (r : Reply) :
    Replied q ({ q with seq := q.seq + 1 }.placed p r) r := by
  rw [PortState.placed_eq]
  exact ⟨rfl, rfl, rfl, rfl, rfl, rfl, rfl, rfl⟩

/-! ### Counting and answering an order -/

variable (s : State)

theorem State.modPort_modPort (p : Port) (f g : PortState → PortState) :
    (s.modPort p f).modPort p g = s.modPort p fun q => g (f q) := by
  cases p <;> rfl

theorem onlyPort_modPort (p : Port) (f : PortState → PortState) : OnlyPort s (s.modPort p f) p := by
  cases p <;> rfl

/-- An order that is counted and answered has done nothing else (R161). -/
theorem answered_countOrder_answer (p : Port) (st : Status) (d : ReplyData) :
    Answered s ((s.countOrder p).answer p st d) p ⟨st, d⟩ := by
  unfold State.countOrder State.answer
  rw [State.modPort_modPort]
  refine ⟨onlyPort_modPort s p _, ?_⟩
  rw [State.modPort_same]
  exact replied_placed (s.port p) p ⟨st, d⟩

@[simp] theorem State.countOrder_rules (p : Port) : (s.countOrder p).rules = s.rules := State.modPort_rules s p _
@[simp] theorem State.countOrder_profiles (p : Port) : (s.countOrder p).profiles = s.profiles := State.modPort_profiles s p _
@[simp] theorem State.countOrder_starting (p : Port) : (s.countOrder p).starting = s.starting := by
  simp [State.countOrder, State.starting]
@[simp] theorem State.countOrder_halted (p : Port) : (s.countOrder p).halted = s.halted := by
  simp [State.countOrder, State.halted]

@[simp] theorem State.countOrder_slot (p : Port) : ((s.countOrder p).port p).slot = (s.port p).slot := by
  simp [State.countOrder]

/-! ### The checks before an order's own (R162 to R165) -/

variable {s} {r : OrderRule} {p : Port}

@[simp] theorem State.barred_countOrder : (s.countOrder p).barred r p = s.barred r p := by
  simp [State.barred]

/-- The start-up phase holds an order of the Yard or Service port back, unless it is served in any phase (R164). -/
theorem State.barred_starting (allowed : r.allows p = true) (starting : s.starting = true) (port : p ≠ .V)
    (phase : r.anyPhase = false) : s.barred r p = some .starting := by
  simp [State.barred, allowed, starting, port, phase]

/-- A permitted short order that HALTED does not stop passes the checks once the start-up phase has ended, in every mode. -/
theorem State.barred_none_of_running (allowed : r.allows p = true) (running : s.starting = false)
    (unstopped : r.stopped = false) (short : r.long = false) : s.barred r p = none := by
  simp [State.barred, allowed, running, unstopped, short]

/-! ### Taking an order (R161, R162) -/

theorem State.takeOrder_barred {body : State → State} {st : Status} (unarmed : s.armed p = false)
    (barred : s.barred r p = some st) : s.takeOrder r p body = (s.countOrder p).refuse p st := by
  simp [State.takeOrder, unarmed, barred]

theorem State.takeOrder_passed {body : State → State} (unarmed : s.armed p = false)
    (passes : s.barred r p = none) : s.takeOrder r p body = body (s.countOrder p) := by
  simp [State.takeOrder, unarmed, passes]

/-- An order that a check bars is answered with its status, and nothing else changes (R162). -/
theorem answered_takeOrder_barred {body : State → State} {st : Status} (unarmed : s.armed p = false)
    (barred : s.barred r p = some st) : Answered s (s.takeOrder r p body) p ⟨st, .empty⟩ := by
  rw [State.takeOrder_barred unarmed barred]
  exact answered_countOrder_answer s p st .empty

/-! ### READ PLAN (R27) -/

/-- The orders of the Yard and Service ports are those that the Vehicle port alone is denied (Table 10.1). -/
theorem ruleYS_allows (hp : p ≠ .V) : ruleYS.allows p = true := by
  cases p
  case V => exact absurd rfl hp
  case Y | S => rfl

theorem exec_readPlan (p : Port) (s : State) : exec (.readPlan p) s = .next (s.readPlan p) := rfl

theorem answered_readPlan_of_running (unarmed : s.armed p = false) (hp : p ≠ .V) (running : s.starting = false) :
    Answered s (s.readPlan p) p ⟨.done, .plan s.rules s.profiles⟩ := by
  have passes : s.barred ruleYS p = none := State.barred_none_of_running (ruleYS_allows hp) running rfl rfl
  have taken : s.readPlan p = (s.countOrder p).answer p .done (.plan s.rules s.profiles) := by
    rw [State.readPlan, State.takeOrder_passed unarmed passes, State.countOrder_rules, State.countOrder_profiles]
  exact taken ▸ answered_countOrder_answer s p _ _

theorem answered_readPlan_of_starting (unarmed : s.armed p = false) (hp : p ≠ .V) (starting : s.starting = true) :
    Answered s (s.readPlan p) p ⟨.starting, .empty⟩ :=
  answered_takeOrder_barred unarmed (State.barred_starting (ruleYS_allows hp) starting hp rfl)

/-- Settles O15: READ PLAN is no long order and HALTED does not stop it, so on its two ports the start-up phase alone can bar
it, and its own effect is the reply. -/
theorem readPlanReturnsThePlan : Obligations.ReadPlanReturnsThePlan := by
  intro s p unarmed hp
  exact ⟨fun running => ⟨s.readPlan p, exec_readPlan p s, answered_readPlan_of_running unarmed hp running⟩,
    fun starting => ⟨s.readPlan p, exec_readPlan p s, answered_readPlan_of_starting unarmed hp starting⟩⟩

end Sys2Proof.Machine
end

section
/-!
SUPPORT and PROOF. The line an operand names (R181), and READ LINE: what it reports, and what its clear option clears (R83, R87).
-/

namespace Sys2Proof.Machine

open Sys2Proof

/-! ### The line an operand names (R181) -/

theorem lineNamed_eq_some {n : Nat} {l : Line} : lineNamed n = some l ↔ n = 0 ∧ l = .A ∨ n = 1 ∧ l = .B := by
  match n with
  | 0 | 1 | n + 2 => simp [lineNamed, eq_comm]

theorem lineNamed_eq_none {n : Nat} : lineNamed n = none ↔ 1 < n := by
  match n with
  | 0 | 1 | n + 2 => simp [lineNamed]

/-! ### What READ LINE reports (R87) -/

variable {s : State} {p : Port}

@[simp] theorem State.countOrder_line (l : Line) : (s.countOrder p).line l = s.line l := State.modPort_line s p _ l
@[simp] theorem State.countOrder_guardTime : (s.countOrder p).guardTime = s.guardTime := State.modPort_guardTime s p _
@[simp] theorem State.countOrder_swapCount (l : Line) : (s.countOrder p).swapCount l = s.swapCount l := by
  simp [State.countOrder, State.swapCount]

/-- Counting the order changes nothing that the report holds. -/
theorem State.lineReport_countOrder (l : Line) : (s.countOrder p).lineReport l = s.lineReport l := by
  simp [State.lineReport]

/-! ### READ LINE by the branches of its own checks -/

variable {n c : Nat} {l : Line}

theorem State.readLine_unnamed (unarmed : s.armed p = false) (passes : s.barred ruleYS p = none)
    (unnamed : lineNamed n = none) : s.readLine p n c = (s.countOrder p).refuse p .range := by
  simp [State.readLine, State.takeOrder_passed unarmed passes, unnamed]

/-- READ LINE taken and answered with a line's report, its counters not yet cleared. -/
def State.lineReported (s : State) (p : Port) (l : Line) : State :=
  (s.countOrder p).answer p .done (.line (s.lineReport l))

/-- READ LINE of a line answers the report; the clear option then sets the counters to zero, after the reply (R83). -/
theorem State.readLine_named (unarmed : s.armed p = false) (passes : s.barred ruleYS p = none)
    (named : lineNamed n = some l) (encoded : c ≤ 1) :
    s.readLine p n c =
      if c = 0 then s.lineReported p l else (s.lineReported p l).modStats l fun _ => zeroStats := by
  rw [State.readLine, State.takeOrder_passed unarmed passes]
  obtain rfl | rfl : c = 0 ∨ c = 1 := by omega
  all_goals simp [named, flagOk, flagSet, State.lineReported, State.lineReport_countOrder]

/-! ### READ LINE -/

theorem exec_readLine (p : Port) (n c : Nat) (s : State) : exec (.readLine p n c) s = .next (s.readLine p n c) := rfl

theorem answered_readLine_of_starting (unarmed : s.armed p = false) (hp : p ≠ .V) (starting : s.starting = true) :
    Answered s (s.readLine p n c) p ⟨.starting, .empty⟩ :=
  answered_takeOrder_barred unarmed (State.barred_starting (ruleYS_allows hp) starting hp rfl)

theorem answered_readLine_unnamed (unarmed : s.armed p = false) (passes : s.barred ruleYS p = none)
    (unnamed : lineNamed n = none) : Answered s (s.readLine p n c) p ⟨.range, .empty⟩ := by
  rw [State.readLine_unnamed unarmed passes unnamed]
  exact answered_countOrder_answer s p .range .empty

theorem answered_lineReported (s : State) (p : Port) (l : Line) :
    Answered s (s.lineReported p l) p ⟨.done, .line (s.lineReport l)⟩ :=
  answered_countOrder_answer s p .done _

/-- Settles O17: on its two ports the start-up phase alone can bar READ LINE, its own checks are of the line and of the clear
option, and the counters are cleared in the state that already holds the reply. -/
theorem readLineReportsTheLine : Obligations.ReadLineReportsTheLine := by
  intro s p unarmed hp
  refine ⟨fun starting n c => ⟨_, exec_readLine p n c s, answered_readLine_of_starting unarmed hp starting⟩, fun running => ?_⟩
  have passes : s.barred ruleYS p = none := State.barred_none_of_running (ruleYS_allows hp) running rfl rfl
  refine ⟨fun n c beyond =>
    ⟨_, exec_readLine p n c s, answered_readLine_unnamed unarmed passes (lineNamed_eq_none.2 beyond)⟩, ?_⟩
  intro l n c named encoded
  have cleared_after := State.readLine_named unarmed passes (lineNamed_eq_some.2 named) encoded
  exact ⟨s.readLine p n c, s.lineReported p l, s.lineReport l, exec_readLine p n c s, answered_lineReported s p l,
    cleared_after, rfl, rfl, rfl, rfl, rfl, rfl, rfl, rfl, rfl⟩

end Sys2Proof.Machine
end

section
/-!
SUPPORT and PROOF. The program-time estimate of a unit (R91): what a sample above it, below it and equal to it makes of it.
-/

namespace Sys2Proof.Machine

open Sys2Proof

/-! ### The estimate after a sample, by where the sample stands (R91) -/

variable {e v : Nat}

theorem newEstimate_of_lt (above : e < v) : newEstimate e v = max 1 (min 20000 (e + ceilDiv (v - e) 8)) := by
  simp [newEstimate, clampTo, above]

theorem newEstimate_of_le (notAbove : v ≤ e) : newEstimate e v = max 1 (min 20000 (e - (e - v) / 8)) := by
  simp [newEstimate, clampTo, Nat.not_lt.2 notAbove]

theorem newEstimate_self (e : Nat) : newEstimate e e = max 1 (min 20000 e) := by
  simp [newEstimate_of_le le_rfl]

/-- Settles O48: the step up is the difference's eighth as `ceilDiv` rounds it, the step down the quotient by 8, and a sample
equal to the estimate leaves only the clamp. -/
theorem samplesMoveTheEstimate : Obligations.SamplesMoveTheEstimate := by
  intro e v
  refine ⟨fun above => ?_, fun below => ?_, ?_⟩
  · obtain ⟨reaches, within⟩ := ceilDiv_isCeil (v - e) 8 (by decide)
    exact ⟨ceilDiv (v - e) 8, by omega, by omega, newEstimate_of_lt above⟩
  · exact ⟨(e - v) / 8, by omega, by omega, newEstimate_of_le below.le⟩
  · rintro rfl
    exact newEstimate_self v

end Sys2Proof.Machine
end
